-- ==== Sys2Proof/Word.lean ====
section
/-! DEFINITION. The two widths of the block: a data byte and a command or response word (rule R7). -/

namespace Sys2Proof

/-- One byte: a data operand, a table entry, a keystream index (rule R7, `BYTE` = 8 bits). -/
abbrev Byte := BitVec 8

/-- One 16-bit word: a command, a response, the CRC value (rule R7, `CMD_WIDTH`, `RSP_WIDTH`, `CRC_WIDTH`). -/
abbrev Word := BitVec 16

end Sys2Proof
end

