-- ==== Sys2Proof/Syntax.lean ====
section
/-! DEFINITION. The commands of the block (rule R63), their names, their two formats, and the source forms of the
assembler (rules R68 and R69). -/

namespace Sys2Proof

/-- The ten commands, one constructor per row of spec/opcode_table.json. The only operand is the data byte of a
format B command (rule R62). Bits 7:0 of a format N command are ignored (rule R65) and have no place here. -/
inductive Instr where
  /-- Do nothing (rule R140). -/
  | nop
  /-- Start the cipher at keystream position 0 (rule R84). -/
  | cinit
  /-- Cipher one byte (rule R85). -/
  | cxor (b : Byte)
  /-- Set the CRC register to its initial value (rule R102). -/
  | crci
  /-- Fold one byte into the CRC register (rule R103). -/
  | crcb (b : Byte)
  /-- Cipher one byte and fold the ciphered byte into the CRC (rule R120). -/
  | cxc (b : Byte)
  /-- Read the CRC register (rule R104). -/
  | crcr
  /-- Read the status register (rule R141). -/
  | stat
  /-- Clear the status register (rule R142). -/
  | sclr
  /-- Soft reset (rule R143). -/
  | rst
deriving DecidableEq, Repr

/-- The two formats of rule R61: `B` has a data byte in bits 7:0, `N` ignores them. -/
inductive Format where
  | N
  | B
deriving DecidableEq, Repr

/-- The ten mnemonics of rule R63. -/
inductive Mnemonic where
  | NOP | CINIT | CXOR | CRCI | CRCB | CXC | CRCR | STAT | SCLR | RST
deriving DecidableEq, Repr

/-- The format column of rule R63. -/
def Mnemonic.format : Mnemonic → Format
  | .CXOR | .CRCB | .CXC => .B
  | .NOP | .CINIT | .CRCI | .CRCR | .STAT | .SCLR | .RST => .N

/-- The mnemonic of a command. -/
def Instr.mnemonic : Instr → Mnemonic
  | .nop => .NOP
  | .cinit => .CINIT
  | .cxor _ => .CXOR
  | .crci => .CRCI
  | .crcb _ => .CRCB
  | .cxc _ => .CXC
  | .crcr => .CRCR
  | .stat => .STAT
  | .sclr => .SCLR
  | .rst => .RST

/-- The data byte of a format B command; a format N command has none (rule R61). -/
def Instr.dataByte : Instr → Option Byte
  | .cxor b | .crcb b | .cxc b => some b
  | .nop | .cinit | .crci | .crcr | .stat | .sclr | .rst => none

/-- One line of assembler source, read but not yet checked (rule R68): nothing but white space or a comment, a
mnemonic with or without an operand, or a raw `.word`. -/
inductive SourceLine where
  | blank
  | command (m : Mnemonic) (operand : Option Nat)
  | rawWord (value : Nat)
deriving DecidableEq, Repr

/-- The pseudo-commands of rule R69, each over a byte sequence of any length: no source line, since the rule gives
the byte sequence no written form (log entry 18). -/
inductive PseudoCommand where
  | cbuf (B : List Byte)
  | crcbuf (B : List Byte)
  | cxcbuf (B : List Byte)
deriving DecidableEq, Repr

/-- The source line that writes a command: its mnemonic, and its data byte where it has one (rule R68). -/
def Instr.source (i : Instr) : SourceLine :=
  .command i.mnemonic (i.dataByte.map BitVec.toNat)

end Sys2Proof
end

