-- ==== Sys2Proof/WellFormed.lean ====
section
/-! DEFINITION. Which source lines are no assembly error (rule R68). A term of `Instr` carries its operand as a
byte, and every byte is a valid operand (rule R63), so every `Instr` is well-formed. -/

namespace Sys2Proof

/-- An operand is a byte: 0 to 255 (rule R68). -/
def operandInRange (n : Nat) : Bool := n < 256

/-- A raw word is 16 bits (rule R68, `.word 0xNNNN`). -/
def rawWordInRange (n : Nat) : Bool := n < 65536

/-- The checks of rule R68: a format B command has an operand, in range; a format N command has none. -/
def SourceLine.wellFormed : SourceLine → Bool
  | .blank => true
  | .command m none => m.format = .N
  | .command m (some n) => m.format = .B && operandInRange n
  | .rawWord n => rawWordInRange n

/-- A command is well-formed when its source line is. -/
def Instr.wellFormed (i : Instr) : Bool := i.source.wellFormed

end Sys2Proof
end

