-- ==== Sys2Proof/Decode.lean ====
section
/-! DEFINITION. The decoder of rule R66, total on all 16-bit words, and after it the encoder of rule R68. -/

namespace Sys2Proof

/-- `cmd[15:8]`, the opcode field (rule R61). -/
def opcodeOf (cmd : Word) : Byte := cmd.extractLsb' 8 8

/-- `cmd[7:0]`, the data byte of format B, used as it stands (rule R62). -/
def operandOf (cmd : Word) : Byte := cmd.extractLsb' 0 8

/-- Why a word is no command: its opcode, 0x09 to 0xFE, is unassigned (rule R64). The block accepts such a word
all the same, with the effect of rule R145. -/
inductive DecodeError where
  | unassigned (op : Byte)
deriving DecidableEq, Repr

/-- Rule R66. Bits 7:0 of a format N command are ignored (rule R65). -/
def decode (cmd : Word) : Except DecodeError Instr :=
  match (opcodeOf cmd).toNat with
  | 0x00 => .ok .nop
  | 0x01 => .ok .cinit
  | 0x02 => .ok (.cxor (operandOf cmd))
  | 0x03 => .ok .crci
  | 0x04 => .ok (.crcb (operandOf cmd))
  | 0x05 => .ok (.cxc (operandOf cmd))
  | 0x06 => .ok .crcr
  | 0x07 => .ok .stat
  | 0x08 => .ok .sclr
  | 0xFF => .ok .rst
  | _ => .error (.unassigned (opcodeOf cmd))

/-- An instruction of the opcode table as a command word: `w` numbered as the table numbers it (bit 0 the least
significant), every bit from `nbits` up zero. A command is one 16-bit word and has no bytes in memory (rule R43). -/
def tableWord (nbits w : Nat) : Word := BitVec.ofNat 16 (w % 2 ^ nbits)

/-- What the decoder reads from an instruction of the opcode table. -/
def decodeTableWord (nbits w : Nat) : Option Instr :=
  match decode (tableWord nbits w) with
  | .ok i => some i
  | .error _ => none

/-- The opcode column of rule R63. -/
def Mnemonic.opcode : Mnemonic → Byte
  | .NOP => 0x00#8
  | .CINIT => 0x01#8
  | .CXOR => 0x02#8
  | .CRCI => 0x03#8
  | .CRCB => 0x04#8
  | .CXC => 0x05#8
  | .CRCR => 0x06#8
  | .STAT => 0x07#8
  | .SCLR => 0x08#8
  | .RST => 0xFF#8

/-- The word with opcode `op` and byte `b`: `{op, b}` in the notation of rule R8, `(op << 8) | b` in rule R68. -/
def commandWord (op b : Byte) : Word := op ++ b

/-- What the assembler emits for a command: the data byte, or 0x00 in the ignored bits (rule R68). -/
def encode (i : Instr) : Word := commandWord i.mnemonic.opcode (i.dataByte.getD 0x00#8)

end Sys2Proof
end

