-- ==== Sys2Proof/Config.lean ====
section
/-! DEFINITION. The `OPEN` parameter KEY of rule R7, and the constants the spec fixes. -/

namespace Sys2Proof

/-- The 16 bytes of a key, `KEY[0]` first (rule R7, `KEY_LEN` = 16). -/
abbrev Key := Vector Byte 16

/-- What the build of a block fixes (section 6 of spec/10_state.md): the key, a constant no command reads out or
writes (rule R23). The other `OPEN` parameter, BUS_BINDING, is below transaction level (log entry 11). -/
structure Config where
  KEY : Key
deriving DecidableEq, Repr

/-- The key of the block that is reset. The spec leaves it `OPEN` (rule R7), so it has no value here: a claim about
it holds for every key. DESIGN CHOICE, safe: log entry 1. -/
opaque Config.buildKey : Key

/-- The configuration of the block that is reset: its key is `Config.buildKey`. -/
def Config.build : Config := { KEY := Config.buildKey }

/-- `KEY_DEFAULT` of rule R7. PRESUMED by the spec itself (general knowledge, G4): only claims that name this key
rest on it. Log entry 8. -/
def Config.keyDefault : Key :=
  #v[0x7C#8, 0x4E#8, 0x03#8, 0x04#8, 0x55#8, 0x05#8, 0x09#8, 0x07#8,
     0x2D#8, 0x2C#8, 0x7B#8, 0x38#8, 0x17#8, 0x0D#8, 0x17#8, 0x11#8]

/-- `CRC_INIT` of rule R7. -/
def Config.crcInit : Word := 0xFFFF#16

/-- `CRC_POLY` of rule R7. -/
def Config.crcPoly : Word := 0x1021#16

/-- `CRC_XOROUT` of rule R7: no final XOR. -/
def Config.crcXorOut : Word := 0x0000#16

end Sys2Proof
end

