-- ==== Sys2Proof/Machine/Crc.lean ====
section
/-! DEFINITION. The checksum unit's functions of rules R100, R101 and R110, on plain data. -/

namespace Sys2Proof.Machine

/-- One shift of the CRC value: the top bit, tested before the shift, decides whether the polynomial is XORed in
(rule R100). The shift drops bit 15 and brings in a 0 at bit 0. -/
def crcShift (c : Word) : Word :=
  if c.getLsbD 15 then (c <<< 1) ^^^ Config.crcPoly else c <<< 1

/-- Where the data byte enters: `c ^ {b, 0x00}` (rule R100, decision D10). -/
def crcEnter (c : Word) (b : Byte) : Word := c ^^^ (b ++ 0x00#8)

/-- `CRC_STEP(c, b)` of rule R100: the entry, then 8 shifts. -/
def crcStep (c : Word) (b : Byte) : Word := crcShift^[8] (crcEnter c b)

/-- `CRC16(B)` of rule R101: from 0xFFFF, every byte in order, and no final XOR (`CRC_XOROUT` is 0). -/
def crc16 (B : List Byte) : Word := B.foldl crcStep Config.crcInit ^^^ Config.crcXorOut

/-- One step of the bit-serial form of rule R110 for data bit `k`. -/
def crcSerialBit (b : Byte) (c : Word) (k : Nat) : Word :=
  let fb := c.getLsbD 15 ^^ b.getLsbD k
  if fb then (c <<< 1) ^^^ Config.crcPoly else c <<< 1

/-- The bit-serial form of rule R110: data bits 7 down to 0. -/
def crcSerial (c : Word) (b : Byte) : Word := [7, 6, 5, 4, 3, 2, 1, 0].foldl (crcSerialBit b) c

end Sys2Proof.Machine
end

