-- ==== Sys2Proof/Machine/Keystream.lean ====
section
/-! DEFINITION. The cipher unit's functions of rules R80 to R83, on plain data: the permutation table, the key
schedule, the keystream step, the keystream and the buffer transform. -/

namespace Sys2Proof.Machine

/-- The permutation table `S`: 256 entries of 8 bits (rule R20). -/
abbrev Table := Vector Byte 256

/-- `S[n]` of rule R9. The index is a byte, so it is in range by construction (rule R40). -/
def readTable (S : Table) (n : Byte) : Byte := S[n.toNat]'n.isLt

/-- `swap(S, a, b)` of rule R9: exchanges two entries, and does nothing when they are one. -/
def swapTable (S : Table) (a b : Byte) : Table := S.swap a.toNat b.toNat a.isLt b.isLt

/-- The positions 0 to 255 in increasing order (rule R80). -/
def positions : List Byte := (List.range 256).map (BitVec.ofNat 8)

/-- The identity table, `S[n] <- n` for every n (rule R80). -/
def identityTable : Table := ⟨positions.toArray, by simp [positions]⟩

/-- `K[i mod 16]`: the 16-byte key cycled across the 256 positions (rule R80). -/
def keyByte (K : Key) (i : Byte) : Byte := K[i.toNat % 16]'(Nat.mod_lt _ (by decide))

/-- One pass of the key schedule's loop at position `i`: update the local j, then swap (rule R80). PRESUMED by the
spec (RC4, general knowledge G2): log entry 7. -/
def ksaStep (K : Key) (p : Table × Byte) (i : Byte) : Table × Byte :=
  let j := p.2 + readTable p.1 i + keyByte K i
  (swapTable p.1 i j, j)

/-- `KSA(K)` of rule R80. Its j is local, and is not the register `J`. Irreducible for the elaborator alone: the
kernel evaluates it, and no unification runs its 256 swaps. -/
@[irreducible] def ksa (K : Key) : Table := (positions.foldl (ksaStep K) (identityTable, 0x00#8)).1

/-- The three registers a keystream step reads and writes (rule R81). -/
structure CipherRegs where
  S : Table
  I : Byte
  J : Byte
deriving DecidableEq, Repr

/-- `PRGA_STEP(S, I, J)` of rule R81: the new registers and one keystream byte. `t` and the byte are read after the
swap. PRESUMED by the spec (RC4, general knowledge G3): log entry 7. -/
def prgaStep (c : CipherRegs) : CipherRegs × Byte :=
  let I' := c.I + 1
  let J' := c.J + readTable c.S I'
  let S' := swapTable c.S I' J'
  let t := readTable S' I' + readTable S' J'
  ({ S := S', I := I', J := J' }, readTable S' t)

/-- The cipher registers right after a key schedule: the table, and both indices 0 (rules R82 and R84). -/
def freshCipher (K : Key) : CipherRegs := { S := ksa K, I := 0x00#8, J := 0x00#8 }

/-- The cipher registers `n` keystream steps after a fresh key schedule (rules R30 and R82). -/
def cipherAt (K : Key) : Nat → CipherRegs
  | 0 => freshCipher K
  | n + 1 => (prgaStep (cipherAt K n)).1

/-- `KS(K, n)` of rule R82: the byte of step n+1. -/
def ks (K : Key) (n : Nat) : Byte := (prgaStep (cipherAt K n)).2

/-- `cipher(B, K)` of rule R83: `c[n] = b[n] ^ KS(K, n)`. -/
def cipher (B : List Byte) (K : Key) : List Byte := B.mapIdx fun n b => b ^^^ ks K n

end Sys2Proof.Machine
end

