-- ==== Sys2Proof/Machine/State.lean ====
section
/-! DEFINITION. The state of the block (rules R20 to R26), the host's side of its port (rules R60, R192, R193),
the reset state (rule R32) and the two reason types. -/

namespace Sys2Proof.Machine

/-- What the host can do between two transactions, and nothing else (rule R192). -/
inductive HostMove where
  /-- Issue one 16-bit command word: any word, an unassigned one too. -/
  | command (cmd : Word)
  /-- Assert the reset input (rule R180). -/
  | reset
deriving DecidableEq, Repr

/-- The state. `S`, `I`, `J`, `CRC` and `ILL` are the block's own (rule R26), `cfg` is the constant it was built
with, and the last two fields are the MODEL's view of its two ports, not registers of the block (rule R29). -/
structure State where
  /-- The build-time constants: KEY (rule R23). No step changes them. Log entry 1. -/
  cfg : Config
  /-- The permutation table (rule R20). -/
  S : Table
  /-- The first keystream index (rule R21). -/
  I : Byte
  /-- The second keystream index (rule R22). -/
  J : Byte
  /-- The CRC register (rule R24). -/
  CRC : Word
  /-- Bit 0 of STATUS (rule R25). Bits 7:1 are hard-wired to 0 in `statusByte`. Log entry 5. -/
  ILL : Bool
  /-- The command port's environment: the moves the host has still to make, next one first. Log entry 2. -/
  host : List HostMove
  /-- The response port's record: every response word delivered so far, first one first (rule R193). Log entry 4. -/
  responses : List Word
deriving DecidableEq, Repr

/-- The reasons a step can stop the machine with a fault: NONE. The block raises no exception and has no trap
(rule R160), so this type has no constructor and nobody raises one. Safe: an empty type adds no behaviour. -/
inductive Fault where
deriving DecidableEq, Repr

/-- The reasons the model refuses to give a step a meaning. -/
inductive Refusal where
  /-- Raised by `exec`'s arm of a command that has no meaning yet; no arm raises it now. Safe: the model stops. -/
  | notModelled (mnemonic : String)
deriving DecidableEq, Repr

/-- The reset state of rule R32 for a block built with `c`, no move of the host pending and no response given. -/
def State.resetOf (c : Config) : State where
  cfg := c
  S := ksa c.KEY
  I := 0x00#8
  J := 0x00#8
  CRC := Config.crcInit
  ILL := false
  host := []
  responses := []

/-- A run as rule R193 starts it: the reset state of a block built with `c`, and the host's finite sequence of
moves. -/
def State.launch (c : Config) (moves : List HostMove) : State := { State.resetOf c with host := moves }

/-- The machine right after reset (rule R32). Its key is the `OPEN` parameter (log entry 1). -/
def State.reset : State := State.resetOf Config.build

end Sys2Proof.Machine
end

