-- ==== Sys2Proof/Machine/Flags.lean ====
section
/-! DEFINITION. The status register of rule R25 and every way a step writes its one flag, ILL. -/

namespace Sys2Proof.Machine

/-- The 8-bit STATUS value for a given ILL: bit 0 is ILL, bits 7:1 are reserved and read as 0 (rule R25). -/
def statusByte (ill : Bool) : Byte :=
  match ill with
  | true => 0x01#8
  | false => 0x00#8

/-- `STATUS` as it is read (rule R25). -/
def readStatus (s : State) : Byte := statusByte s.ILL

/-- `STATUS[0] <- 1` of rule R145. ILL is sticky: setting it again leaves it at 1. -/
def setIll (s : State) : State := { s with ILL := true }

/-- `STATUS[0] <- 0` of rule R142. -/
def clearIll (s : State) : State := { s with ILL := false }

/-- `STATUS <- v` as rules R143 and R180 write it, with `v` = 0x00: the reserved bits stay 0 whatever is written. -/
def writeStatus (v : Byte) (s : State) : State := { s with ILL := v.getLsbD 0 }

end Sys2Proof.Machine
end

