-- ==== Sys2Proof/Machine/Operands.lean ====
section
/-! DEFINITION. The forms a data byte and the CRC value take at the response port (rules R8, R42 and R70). -/

namespace Sys2Proof.Machine

/-- `zext_16(v)` of rule R8: the byte in bits 7:0 and 0 in bits 15:8 of a response word (rule R70). -/
def zext16 (v : Byte) : Word := v.setWidth 16

/-- The output byte of a data command: the input byte XORed with the keystream byte (rule R85). -/
def outputByte (b k : Byte) : Byte := b ^^^ k

/-- Bits 7:0 of a response word: the output byte of a data command (rule R70). -/
def responseByte (rsp : Word) : Byte := rsp.extractLsb' 0 8

/-- The two trailer bytes of a CRC value, high byte first (rule R42). -/
def trailer (crc : Word) : List Byte := [crc.extractLsb' 8 8, crc.extractLsb' 0 8]

end Sys2Proof.Machine
end

