-- ==== Sys2Proof/Machine/Ops.lean ====
section
/-! DEFINITION. The operations the commands share, over the registers and the two ports. The block has no memory
(rule R40) and takes no exception (rules R160 and R164), so there is no operation for either. -/

namespace Sys2Proof.Machine

/-- The three cipher registers of a state. -/
def State.cipherRegs (s : State) : CipherRegs := { S := s.S, I := s.I, J := s.J }

/-- A state with its three cipher registers written. -/
def State.withCipherRegs (s : State) (c : CipherRegs) : State := { s with S := c.S, I := c.I, J := c.J }

/-- `S <- KSA(KEY); I <- 0; J <- 0` (rule R84). -/
def startCipher (s : State) : State := s.withCipherRegs (freshCipher s.cfg.KEY)

/-- `(S, I, J, k) <- PRGA_STEP(S, I, J)` (rules R85 and R120): the new state and the keystream byte. -/
def keystreamStep (s : State) : State × Byte :=
  let r := prgaStep s.cipherRegs
  (s.withCipherRegs r.1, r.2)

/-- `CRC <- 0xFFFF` (rule R102). -/
def startCrc (s : State) : State := { s with CRC := Config.crcInit }

/-- `CRC <- CRC_STEP(CRC, b)` (rule R103). -/
def foldCrc (b : Byte) (s : State) : State := { s with CRC := crcStep s.CRC b }

/-- `respond(v)` of rule R9: the response word is delivered to the host before the next command is accepted
(rule R60). DESIGN CHOICE, safe: log entry 4. -/
def respond (v : Word) (s : State) : State := { s with responses := s.responses ++ [v] }

/-- The hardware reset of rule R180: every register at its reset value of rule R32, whatever it held. KEY is a
constant. The moves the host has still to make and the responses it has had are the host's and stay. -/
def hardwareReset (s : State) : State :=
  { s with S := ksa s.cfg.KEY, I := 0x00#8, J := 0x00#8, CRC := 0xFFFF#16, ILL := false }

/-- The host's next move and the state once it is taken; `none` when the host makes none (rules R60 and R192). -/
def takeMove (s : State) : Option (HostMove × State) :=
  match s.host with
  | [] => none
  | m :: rest => some (m, { s with host := rest })

/-- What the block does while the host makes no move: it keeps its state (rule R27). DESIGN CHOICE, safe: log
entry 3. -/
def idle (s : State) : Host.Outcome State Fault Refusal := .next s

/-- The state in which issuing `cmd` is the host's very next move. -/
def issueNext (cmd : Word) (s : State) : State := { s with host := .command cmd :: s.host }

end Sys2Proof.Machine
end

