-- ==== Sys2Proof/Machine/Checksum.lean ====
section
/-! DEFINITION. The checksum commands CRCI, CRCB and CRCR (spec/41_crc.md). -/

namespace Sys2Proof.Machine

/-- CRCI (rule R102). -/
def execCrci (s : State) : Host.Outcome State Fault Refusal := .next (startCrc s)

/-- CRCB b (rule R103). No response: the host reads the value with CRCR. -/
def execCrcb (b : Byte) (s : State) : Host.Outcome State Fault Refusal := .next (foldCrc b s)

/-- CRCR (rule R104). No side effect: `CRC` keeps its value. -/
def execCrcr (s : State) : Host.Outcome State Fault Refusal := .next (respond s.CRC s)

end Sys2Proof.Machine
end

