-- ==== Sys2Proof/Machine/Cipher.lean ====
section
/-! DEFINITION. The cipher commands CINIT and CXOR (spec/40_cipher.md). -/

namespace Sys2Proof.Machine

/-- CINIT (rule R84). No response, no flag, `CRC` untouched. -/
def execCinit (s : State) : Host.Outcome State Fault Refusal := .next (startCipher s)

/-- CXOR b (rule R85). One keystream step, one response, `CRC` and STATUS untouched. -/
def execCxor (b : Byte) (s : State) : Host.Outcome State Fault Refusal :=
  let r := keystreamStep s
  .next (respond (zext16 (outputByte b r.2)) r.1)

end Sys2Proof.Machine
end

