-- ==== Sys2Proof/Machine/Control.lean ====
section
/-! DEFINITION. The control commands NOP, STAT, SCLR and RST, and the effect of a word whose opcode is unassigned
(spec/43_control.md). -/

namespace Sys2Proof.Machine

/-- NOP (rule R140): no state change. -/
def execNop (s : State) : Host.Outcome State Fault Refusal := .next s

/-- STAT (rule R141). Reading does not clear ILL. -/
def execStat (s : State) : Host.Outcome State Fault Refusal := .next (respond (zext16 (readStatus s)) s)

/-- SCLR (rule R142). It touches nothing but ILL. -/
def execSclr (s : State) : Host.Outcome State Fault Refusal := .next (clearIll s)

/-- RST (rule R143): as CINIT, then as CRCI, then `STATUS <- 0x00`. -/
def execRst (s : State) : Host.Outcome State Fault Refusal :=
  .next (writeStatus 0x00#8 (startCrc (startCipher s)))

/-- A word with unassigned opcode `op` (rule R145): ILL is set, nothing else changes, there is no response. Which
opcode it was is not recorded (rule R161). Not refused: log entry 6. -/
def execUnassigned (_op : Byte) (s : State) : Host.Outcome State Fault Refusal := .next (setIll s)

end Sys2Proof.Machine
end

