-- ==== Sys2Proof/Machine/Pipeline.lean ====
section
/-! DEFINITION. The combined command CXC (spec/42_pipeline.md). -/

namespace Sys2Proof.Machine

/-- CXC b (rule R120). The CRC folds the OUTPUT byte, not `b`. -/
def execCxc (b : Byte) (s : State) : Host.Outcome State Fault Refusal :=
  let r := keystreamStep s
  let o := outputByte b r.2
  .next (respond (zext16 o) (foldCrc o r.1))

end Sys2Proof.Machine
end

