-- ==== Sys2Proof/Machine/Dispatch.lean ====
section
/-! DEFINITION. The meaning of every command: one arm per constructor of `Instr`. -/

namespace Sys2Proof.Machine

def exec (i : Instr) (s : State) : Host.Outcome State Fault Refusal :=
  match i with
  | .nop => Sys2Proof.Machine.execNop s
  | .cinit => Sys2Proof.Machine.execCinit s
  | .cxor b => Sys2Proof.Machine.execCxor b s
  | .crci => Sys2Proof.Machine.execCrci s
  | .crcb b => Sys2Proof.Machine.execCrcb b s
  | .cxc b => Sys2Proof.Machine.execCxc b s
  | .crcr => Sys2Proof.Machine.execCrcr s
  | .stat => Sys2Proof.Machine.execStat s
  | .sclr => Sys2Proof.Machine.execSclr s
  | .rst => Sys2Proof.Machine.execRst s

end Sys2Proof.Machine
end

