-- ==== Sys2Proof/Machine/Step.lean ====
section
/-! DEFINITION. One step: the next move of the host, done whole before the one after it (rules R48 and R60). -/

namespace Sys2Proof.Machine

/-- One transaction with command word `cmd`: the command it decodes to, or the effect of an unassigned opcode. -/
def transact (cmd : Word) (s : State) : Host.Outcome State Fault Refusal :=
  match decode cmd with
  | .ok i => exec i s
  | .error (.unassigned op) => execUnassigned op s

/-- One step of the machine: the host's next move, or nothing when it makes none. -/
def step (s : State) : Host.Outcome State Fault Refusal :=
  match takeMove s with
  | none => idle s
  | some (.reset, s') => .next (hardwareReset s')
  | some (.command cmd, s') => transact cmd s'

/-- `s` with the table's instruction `w` as the host's very next command. Log entry 2. -/
def State.withFetchWord (s : State) (nbits w : Nat) : State := issueNext (tableWord nbits w) s

end Sys2Proof.Machine
end

