-- ==== Sys2Proof/Machine/Assembler.lean ====
section
/-! DEFINITION. The assembler of rule R68: one line of text to at most one command word. Text is a list of
characters. What the rule leaves open about the text of a line is log entry 14; that a pseudo-command of rule R69 has
no text form here is log entry 18. -/

namespace Sys2Proof.Machine

/-- The assembly errors of rule R68, each of them safe: the line gives no word. -/
inductive AsmError where
  /-- Raised for a first word that is no mnemonic; an unassigned opcode has none. A pseudo-command's name is none of
  the ten either: DESIGN CHOICE, log entry 18. -/
  | unknownMnemonic
  /-- Raised for an operand in none of the written forms. -/
  | badOperand
  /-- Raised for a format B command without an operand. -/
  | missingOperand
  /-- Raised for a format N command with an operand. -/
  | unexpectedOperand
  /-- Raised for an operand outside 0 to 255. -/
  | operandOutOfRange
  /-- Raised for a `.word` that is not followed by a 16-bit word. -/
  | badRawWord
deriving DecidableEq, Repr

/-- The word a source line emits (rule R68), or the error it is; a blank line emits nothing. -/
def assembleSource : SourceLine → Except AsmError (Option Word)
  | .blank => .ok none
  | .command m none =>
    match m.format with
    | .N => .ok (some (commandWord m.opcode 0x00#8))
    | .B => .error .missingOperand
  | .command m (some n) =>
    match m.format with
    | .N => .error .unexpectedOperand
    | .B =>
      if operandInRange n then .ok (some (commandWord m.opcode (BitVec.ofNat 8 n)))
      else .error .operandOutOfRange
  | .rawWord n => if rawWordInRange n then .ok (some (BitVec.ofNat 16 n)) else .error .badRawWord

/-- The letters of a mnemonic. -/
def mnemonicLetters : Mnemonic → List Char
  | .NOP => ['N', 'O', 'P']
  | .CINIT => ['C', 'I', 'N', 'I', 'T']
  | .CXOR => ['C', 'X', 'O', 'R']
  | .CRCI => ['C', 'R', 'C', 'I']
  | .CRCB => ['C', 'R', 'C', 'B']
  | .CXC => ['C', 'X', 'C']
  | .CRCR => ['C', 'R', 'C', 'R']
  | .STAT => ['S', 'T', 'A', 'T']
  | .SCLR => ['S', 'C', 'L', 'R']
  | .RST => ['R', 'S', 'T']

/-- Every mnemonic, in the order of rule R63. -/
def allMnemonics : List Mnemonic :=
  [.NOP, .CINIT, .CXOR, .CRCI, .CRCB, .CXC, .CRCR, .STAT, .SCLR, .RST]

/-- The mnemonic a word of text names, letter case ignored (rule R68). -/
def readMnemonic (cs : List Char) : Option Mnemonic :=
  allMnemonics.find? fun m => mnemonicLetters m == cs.map Char.toUpper

/-- The value of a hexadecimal digit, in either case. -/
def hexDigit (c : Char) : Option Nat :=
  if '0' ≤ c ∧ c ≤ '9' then some (c.toNat - '0'.toNat)
  else if 'a' ≤ c ∧ c ≤ 'f' then some (c.toNat - 'a'.toNat + 10)
  else if 'A' ≤ c ∧ c ≤ 'F' then some (c.toNat - 'A'.toNat + 10)
  else none

/-- The value of a decimal digit. -/
def decDigit (c : Char) : Option Nat :=
  if '0' ≤ c ∧ c ≤ '9' then some (c.toNat - '0'.toNat) else none

/-- The number a row of digits writes in base `base`; `none` where a character is no digit. -/
def readNumber (base : Nat) (digit : Char → Option Nat) (acc : Nat) : List Char → Option Nat
  | [] => some acc
  | c :: cs =>
    match digit c with
    | some d => readNumber base digit (acc * base + d) cs
    | none => none

/-- An operand as rule R68 writes it: `0xNN`, an ASCII character in single quotes, or a decimal number. -/
def readOperand : List Char → Option Nat
  | ['0', 'x', h, l] => readNumber 16 hexDigit 0 [h, l]
  | ['\'', c, '\''] => if c.toNat < 128 then some c.toNat else none
  | [] => none
  | c :: cs => readNumber 10 decDigit 0 (c :: cs)

/-- The word after `.word`: `0xNNNN` (rule R68). -/
def readRawWord : List Char → Option Nat
  | ['0', 'x', a, b, c, d] => readNumber 16 hexDigit 0 [a, b, c, d]
  | _ => none

/-- A row of characters without the white space at its two ends. -/
def trimBlanks (cs : List Char) : List Char :=
  ((cs.dropWhile Char.isWhitespace).reverse.dropWhile Char.isWhitespace).reverse

/-- One line of text, its comment cut off (rule R68). DESIGN CHOICE, log entry 18: rule R69 does not give the written
form of a pseudo-command's byte sequence, so a line that begins CBUF, CRCBUF or CXCBUF is an unknown mnemonic here;
`expand` gives the commands. -/
def readLine (line : List Char) : Except AsmError SourceLine :=
  let text := trimBlanks (line.takeWhile fun c => c != ';')
  let name := text.takeWhile fun c => !c.isWhitespace
  let rest := trimBlanks (text.dropWhile fun c => !c.isWhitespace)
  if name = [] then .ok .blank
  else if name = ['.', 'w', 'o', 'r', 'd'] then
    match readRawWord rest with
    | some n => .ok (.rawWord n)
    | none => .error .badRawWord
  else
    match readMnemonic name with
    | none => .error .unknownMnemonic
    | some m =>
      if rest = [] then .ok (.command m none)
      else
        match readOperand rest with
        | some n => .ok (.command m (some n))
        | none => .error .badOperand

/-- One line of text to its command word (rule R68). -/
def assembleLine (line : List Char) : Except AsmError (Option Word) :=
  match readLine line with
  | .ok src => assembleSource src
  | .error e => .error e

/-- A program's lines, in order, to its command words; the first line in error gives the error (log entry 14). -/
def assembleProgram : List (List Char) → Except AsmError (List Word)
  | [] => .ok []
  | line :: lines =>
    match assembleLine line, assembleProgram lines with
    | .ok (some w), .ok ws => .ok (w :: ws)
    | .ok none, .ok ws => .ok ws
    | .error e, _ => .error e
    | .ok _, .error e => .error e

/-- A byte written `0xNN` (rule R68). -/
def writeByte (b : Byte) : List Char :=
  ['0', 'x', Nat.digitChar (b.toNat / 16), Nat.digitChar (b.toNat % 16)]

/-- The line that writes a command: its mnemonic, and its data byte where it has one (rule R68). -/
def writeLine (i : Instr) : List Char :=
  match i.dataByte with
  | none => mnemonicLetters i.mnemonic
  | some b => mnemonicLetters i.mnemonic ++ ' ' :: writeByte b

end Sys2Proof.Machine
end

