-- ==== Sys2Proof/Machine/Procedures.lean ====
section
/-! DEFINITION. What a host does with the block: the pseudo-commands (rule R69), a sequence of commands issued with
nothing in between (rule R123), a run and its observation (rule R193), and the padding and trailer that stand around
an upload (rules R126 and R128, context: the block knows none of it). -/

namespace Sys2Proof.Machine

/-- The commands a pseudo-command expands to, in order (rule R69). The assembler reads no text for one: log entry 18. -/
def expand : PseudoCommand → List Instr
  | .cbuf B => .cinit :: B.map .cxor
  | .crcbuf B => .crci :: B.map .crcb ++ [.crcr]
  | .cxcbuf B => .cinit :: .crci :: B.map .cxc ++ [.crcr]

/-- A sequence of commands, issued in order with nothing else in between (rules R48 and R123). -/
def execAll : List Instr → State → Host.Outcome State Fault Refusal
  | [], s => .next s
  | i :: rest, s =>
    match exec i s with
    | .next t => execAll rest t
    | .fault r => .fault r
    | .refused r => .refused r

/-- A run: the reset state of a block built with `c`, and one step for every move of the host (rule R193). -/
def runMoves (c : Config) (moves : List HostMove) : Host.Outcome State Fault Refusal :=
  core.run moves.length (State.launch c moves)

/-- The observation of a run that has come to `s`: the response words in issue order and the final STATUS (rule
R193). The other registers are hidden. -/
def observation (s : State) : List Word × Byte := (s.responses, readStatus s)

/-- Zero padding to the next multiple of `C`: P = ceil(L / C) * C (rule R128, done by the host). -/
def padTo (C : Nat) (B : List Byte) : List Byte :=
  B ++ List.replicate ((B.length + C - 1) / C * C - B.length) 0x00#8

/-- The chunk size of the transport, C = 4096 (rule R128, context). -/
def chunkSize : Nat := 4096

/-- The upload stream of rule R126 for a padded buffer `Q`: the ciphered bytes, then the CRC over them, high byte
first. -/
def uploadStream (K : Key) (Q : List Byte) : List Byte := cipher Q K ++ trailer (crc16 (cipher Q K))

end Sys2Proof.Machine
end

