-- ==== Sys2Proof/Safety.lean ====
section
/-! DEFINITION. What the statements say of a state and of a run: the permutation law (rule R86), the keystream
position (rule R30), which command touches which register (rule R26), the states a run reaches (rule R193), and a step
that never stops (rule R160). -/

namespace Sys2Proof

/-- The commands that read and write `S`, `I` and `J` by a keystream step (table of rule R26). -/
def Instr.takesKeystreamStep : Instr → Bool
  | .cxor _ | .cxc _ => true
  | .nop | .cinit | .crci | .crcb _ | .crcr | .stat | .sclr | .rst => false

/-- The commands that write `S`, `I` and `J` (table of rule R26). -/
def Instr.writesCipher : Instr → Bool
  | .cinit | .cxor _ | .cxc _ | .rst => true
  | .nop | .crci | .crcb _ | .crcr | .stat | .sclr => false

/-- The commands that read `CRC` (table of rule R26). -/
def Instr.readsCrc : Instr → Bool
  | .crcb _ | .cxc _ | .crcr => true
  | .nop | .cinit | .cxor _ | .crci | .stat | .sclr | .rst => false

/-- The commands that write `CRC` (table of rule R26). -/
def Instr.writesCrc : Instr → Bool
  | .crci | .crcb _ | .cxc _ | .rst => true
  | .nop | .cinit | .cxor _ | .crcr | .stat | .sclr => false

/-- The one command that reads STATUS (table of rule R26). -/
def Instr.readsStatus : Instr → Bool
  | .stat => true
  | .nop | .cinit | .cxor _ | .crci | .crcb _ | .cxc _ | .crcr | .sclr | .rst => false

/-- The commands that write ILL, both to 0 (table of rule R26). -/
def Instr.writesIll : Instr → Bool
  | .sclr | .rst => true
  | .nop | .cinit | .cxor _ | .crci | .crcb _ | .cxc _ | .crcr | .stat => false

/-- The commands that return one response word; every other returns none (rule R70). -/
def Instr.responds : Instr → Bool
  | .cxor _ | .cxc _ | .crcr | .stat => true
  | .nop | .cinit | .crci | .crcb _ | .sclr | .rst => false

/-- The commands that may stand in the middle of a procedure, with no data response changed (rule R123). -/
def Instr.harmless : Instr → Bool
  | .nop | .crcr | .stat | .sclr => true
  | .cinit | .cxor _ | .crci | .crcb _ | .cxc _ | .rst => false

end Sys2Proof

namespace Sys2Proof.Machine

/-- A move of the host that is answered by one response word (rules R70 and R185). -/
def HostMove.responds : HostMove → Bool
  | .reset => false
  | .command cmd =>
    match decode cmd with
    | .ok i => i.responds
    | .error _ => false

/-- Every value 0 to 255 occurs in exactly one entry (rule R86). -/
def TablePermutation (S : Table) : Prop := ∀ v : Byte, ∃! n : Byte, readTable S n = v

/-- The invariant of rule R86. It is no part of `State`: a state no run reaches need not meet it (rule R31). -/
def State.Inv (s : State) : Prop := TablePermutation s.S

/-- The cipher registers are those `n` keystream steps after a key schedule with the block's key (rule R30). -/
def AtPosition (s : State) (n : Nat) : Prop := s.cipherRegs = cipherAt s.cfg.KEY n

/-- The keystream position after a command at position `n`: CXOR and CXC take one step, CINIT and RST start again,
and no other command moves it (rules R30 and R90). -/
def positionAfterInstr (i : Instr) (n : Nat) : Nat :=
  match i with
  | .cxor _ | .cxc _ => n + 1
  | .cinit | .rst => 0
  | .nop | .crci | .crcb _ | .crcr | .stat | .sclr => n

/-- The keystream position after a move of the host at position `n`. -/
def positionAfterMove (m : HostMove) (n : Nat) : Nat :=
  match m with
  | .reset => 0
  | .command cmd =>
    match decode cmd with
    | .ok i => positionAfterInstr i n
    | .error _ => n

/-- The keystream position after one step from `s` at position `n`. -/
def positionAfterStep (s : State) (n : Nat) : Nat :=
  match s.host with
  | [] => n
  | m :: _ => positionAfterMove m n

/-- The states a run comes through (rule R193): those a launch starts in, and those a step leads to from one. -/
inductive Reachable : State → Prop where
  | launch (c : Config) (moves : List HostMove) : Reachable (State.launch c moves)
  | step (s t : State) (h : Reachable s) (hs : Sys2Proof.Machine.step s = .next t) : Reachable t

/-- A state whose step ends in a next state: no fault and no refusal (rule R160). -/
def Completes (s : State) : Prop := ∃ t, Sys2Proof.Machine.step s = .next t

end Sys2Proof.Machine
end

