-- ==== Sys2Proof/Certificates/Slice0/Obligations.lean ====
section
/-! DEFINITION. The statements for the provers. Each says which rule of spec/ it formalises. -/

open Sys2Proof Sys2Proof.Machine

/-- R71: the encoded examples, both ways, and the two words beside them. -/
def Obligations.SpecExampleWordsDecode : Prop :=
  (encode .cinit = 0x0100#16 ∧ encode (.cxor 0x48#8) = 0x0248#16 ∧ encode (.crcb 0x31#8) = 0x0431#16 ∧
    encode (.cxc 0x00#8) = 0x0500#16 ∧ encode .crcr = 0x0600#16 ∧ encode .stat = 0x0700#16 ∧
    encode .sclr = 0x0800#16 ∧ encode .rst = 0xFF00#16) ∧
  (decode 0x0100#16 = .ok .cinit ∧ decode 0x0248#16 = .ok (.cxor 0x48#8) ∧
    decode 0x0431#16 = .ok (.crcb 0x31#8) ∧ decode 0x0500#16 = .ok (.cxc 0x00#8) ∧
    decode 0x0600#16 = .ok .crcr ∧ decode 0x0700#16 = .ok .stat ∧ decode 0x0800#16 = .ok .sclr ∧
    decode 0xFF00#16 = .ok .rst) ∧
  decode 0x01A5#16 = .ok .cinit ∧ decode 0x4200#16 = .error (.unassigned 0x42#8)

/-- R66: the opcode map, for every opcode and every low byte. -/
def Obligations.DecodeFollowsOpcodeMap : Prop :=
  ∀ op b : Byte,
    (op = 0x00#8 → decode (op ++ b) = .ok .nop) ∧
    (op = 0x01#8 → decode (op ++ b) = .ok .cinit) ∧
    (op = 0x02#8 → decode (op ++ b) = .ok (.cxor b)) ∧
    (op = 0x03#8 → decode (op ++ b) = .ok .crci) ∧
    (op = 0x04#8 → decode (op ++ b) = .ok (.crcb b)) ∧
    (op = 0x05#8 → decode (op ++ b) = .ok (.cxc b)) ∧
    (op = 0x06#8 → decode (op ++ b) = .ok .crcr) ∧
    (op = 0x07#8 → decode (op ++ b) = .ok .stat) ∧
    (op = 0x08#8 → decode (op ++ b) = .ok .sclr) ∧
    (op = 0xFF#8 → decode (op ++ b) = .ok .rst) ∧
    (0x09#8 ≤ op → op ≤ 0xFE#8 → decode (op ++ b) = .error (.unassigned op))

/-- R65: a format N command ignores its low byte, and the encoder writes 0x00 there. -/
def Obligations.FormatNIgnoresLowByte : Prop :=
  (∀ (op x y : Byte) (i : Instr), decode (op ++ x) = .ok i → i.mnemonic.format = .N →
    decode (op ++ y) = .ok i ∧
    ∀ (s : State) (rest : List HostMove),
      step { s with host := .command (op ++ y) :: rest } = step { s with host := .command (op ++ x) :: rest }) ∧
  ∀ i : Instr, i.mnemonic.format = .N → (encode i).extractLsb' 0 8 = 0x00#8

/-- Decode and encode agree: every command, every operand byte (R61, R63, R68). -/
def Obligations.DecodeOfEncodeIsIdentity : Prop :=
  ∀ i : Instr, i.wellFormed = true → decode (encode i) = .ok i

/-- The other way: what a decoded word encodes to is the word, less the ignored bits of format N (R61, R65). -/
def Obligations.EncodeOfDecodeKeepsWord : Prop :=
  ∀ (w : Word) (i : Instr), decode w = .ok i →
    encode i = match i.mnemonic.format with
      | .B => w
      | .N => w &&& 0xFF00#16

/-- The first clause is R32: the reset state, for every key. The second is the model's choice and no rule's: that
`State.reset` is the reset state for the build's key, which is left free (DESIGN CHOICE, log entry 1). -/
def Obligations.ResetStateIsAsTabled : Prop :=
  (∀ c : Config,
    let s := State.resetOf c
    s.S = ksa c.KEY ∧ s.I = 0x00#8 ∧ s.J = 0x00#8 ∧ s.CRC = 0xFFFF#16 ∧ readStatus s = 0x00#8 ∧ s.ILL = false ∧
      s.cfg = c) ∧
  State.reset = State.resetOf Config.build

/-- R180: the hardware reset puts every register at its reset value, whatever it held. That the host's later moves
and its responses stay is the model's (log entry 13). -/
def Obligations.HardwareResetStep : Prop :=
  ∀ (s : State) (rest : List HostMove),
    step { s with host := .reset :: rest } =
      .next { State.resetOf s.cfg with host := rest, responses := s.responses }

/-- A step runs the decoded command: the host's next move is taken, and what is left is the command's meaning. The
second clause says it of the word placed by `withFetchWord`. That the host's moves stand as a list is the model's
(log entry 2). -/
def Obligations.StepRunsDecodedCommand : Prop :=
  (∀ (s : State) (cmd : Word) (rest : List HostMove) (i : Instr), decode cmd = .ok i →
    step { s with host := .command cmd :: rest } = exec i { s with host := rest }) ∧
  ∀ (s : State) (w : Nat) (i : Instr), decodeTableWord 16 w = some i → step (s.withFetchWord 16 w) = exec i s

/-- R145: a word with an unassigned opcode sets ILL, changes nothing else and has no response; ILL then stays 1
under every word and every command but SCLR and RST. -/
def Obligations.UnassignedOpcodeSetsIll : Prop :=
  (∀ (s : State) (op x : Byte) (rest : List HostMove), 0x09#8 ≤ op → op ≤ 0xFE#8 →
    step { s with host := .command (op ++ x) :: rest } = .next { s with host := rest, ILL := true }) ∧
  (∀ (i : Instr) (s t : State), s.ILL = true → i ≠ .sclr → i ≠ .rst → exec i s = .next t → t.ILL = true) ∧
  ∀ (s : State) (rest : List HostMove),
    step { s with host := .command 0x4200#16 :: rest } = .next { s with host := rest, ILL := true }

/-- What a step does when the host makes no move is the model's choice (log entry 3): nothing. -/
def Obligations.StepWithoutMoveKeepsState : Prop :=
  ∀ s : State, step { s with host := [] } = .next { s with host := [] }

/-- R140: NOP, in each of its 256 words, leaves every state as it is. -/
def Obligations.NopKeepsState : Prop :=
  (∀ x : Byte, decode (0x00#8 ++ x) = .ok .nop) ∧ ∀ s : State, exec .nop s = .next s

/-- R84: CINIT, with the example for KEY_DEFAULT. -/
def Obligations.CinitStartsCipher : Prop :=
  (∀ x : Byte, decode (0x01#8 ++ x) = .ok .cinit) ∧
  (∀ s : State, exec .cinit s = .next { s with S := ksa s.cfg.KEY, I := 0x00#8, J := 0x00#8 }) ∧
  (∀ s t : State, exec .cinit s = .next t → exec .cinit t = .next t) ∧
  [0x00#8, 0x01#8, 0x02#8, 0x03#8].map (readTable (ksa Config.keyDefault)) = [0x7A#8, 0x7D#8, 0x98#8, 0x62#8]

/-- R85: CXOR, with its corner cases, the keystream position of R30 and the example for KEY_DEFAULT. -/
def Obligations.CxorCiphersOneByte : Prop :=
  (∀ b : Byte, decode (0x02#8 ++ b) = .ok (.cxor b)) ∧
  (∀ (b : Byte) (s : State),
    let I' := s.I + 1
    let J' := s.J + readTable s.S I'
    let S' := swapTable s.S I' J'
    let k := readTable S' (readTable S' I' + readTable S' J')
    exec (.cxor b) s =
      .next { s with S := S', I := I', J := J', responses := s.responses ++ [zext16 (b ^^^ k)] }) ∧
  (∀ (b : Byte) (s t : State) (n : Nat), AtPosition s n → exec (.cxor b) s = .next t →
    t.responses = s.responses ++ [zext16 (b ^^^ ks s.cfg.KEY n)] ∧ AtPosition t (n + 1)) ∧
  (∀ (b : Byte) (s t : State), s.I = 0xFF#8 → exec (.cxor b) s = .next t → t.I = 0x00#8) ∧
  ∀ s : State, s.cfg.KEY = Config.keyDefault →
    ∃ t, execAll [.cinit, .cxor 0x48#8] s = .next t ∧ t.responses = s.responses ++ [0x0026#16]

/-- R102: CRCI, and the example of CRCI and then CRCR. -/
def Obligations.CrciSetsInitialValue : Prop :=
  (∀ x : Byte, decode (0x03#8 ++ x) = .ok .crci) ∧
  (∀ s : State, exec .crci s = .next { s with CRC := 0xFFFF#16 }) ∧
  ∀ s : State,
    execAll [.crci, .crcr] s = .next { s with CRC := 0xFFFF#16, responses := s.responses ++ [0xFFFF#16] }

/-- R103: CRCB, with its corner cases and its example. -/
def Obligations.CrcbFoldsOneByte : Prop :=
  (∀ b : Byte, decode (0x04#8 ++ b) = .ok (.crcb b)) ∧
  (∀ (b : Byte) (s : State), exec (.crcb b) s = .next { s with CRC := crcStep s.CRC b }) ∧
  crcStep 0x0000#16 0x00#8 = 0x0000#16 ∧
  crcStep 0xFFFF#16 0x00#8 = 0xE1F0#16 ∧
  ∀ s : State, execAll [.crci, .crcb 0x31#8] s = .next { s with CRC := 0xC782#16 }

/-- R104: CRCR, with the trailer's order and the check value. -/
def Obligations.CrcrRespondsCrc : Prop :=
  (∀ x : Byte, decode (0x06#8 ++ x) = .ok .crcr) ∧
  (∀ s : State, exec .crcr s = .next { s with responses := s.responses ++ [s.CRC] }) ∧
  (∀ c : Word, trailer c = [c.extractLsb' 8 8, c.extractLsb' 0 8]) ∧
  trailer 0x29B1#16 = [0x29#8, 0xB1#8] ∧
  ∀ s : State,
    execAll (expand (.crcbuf [0x31#8, 0x32#8, 0x33#8, 0x34#8, 0x35#8, 0x36#8, 0x37#8, 0x38#8, 0x39#8])) s =
      .next { s with CRC := 0x29B1#16, responses := s.responses ++ [0x29B1#16] }

/-- R120: CXC, with its example for KEY_DEFAULT: four zero bytes after RST. -/
def Obligations.CxcCiphersAndFoldsOutput : Prop :=
  (∀ b : Byte, decode (0x05#8 ++ b) = .ok (.cxc b)) ∧
  (∀ (b : Byte) (s : State),
    let I' := s.I + 1
    let J' := s.J + readTable s.S I'
    let S' := swapTable s.S I' J'
    let k := readTable S' (readTable S' I' + readTable S' J')
    let o := b ^^^ k
    exec (.cxc b) s =
      .next { s with
        S := S', I := I', J := J', CRC := crcStep s.CRC o, responses := s.responses ++ [zext16 o] }) ∧
  (∀ s : State, s.cfg.KEY = Config.keyDefault →
    ∃ t, execAll [.rst, .cxc 0x00#8] s = .next t ∧
      t.responses = s.responses ++ [0x006E#16] ∧ t.CRC = crcStep 0xFFFF#16 0x6E#8) ∧
  ∀ s : State, s.cfg.KEY = Config.keyDefault →
    ∃ t, execAll [.rst, .cxc 0x00#8, .cxc 0x00#8, .cxc 0x00#8, .cxc 0x00#8] s = .next t ∧
      t.responses = s.responses ++ [0x006E#16, 0x0026#16, 0x002C#16, 0x00F3#16] ∧ t.CRC = 0xD7D9#16

/-- R141: STAT, with its corner case and its example. -/
def Obligations.StatRespondsStatus : Prop :=
  (∀ x : Byte, decode (0x07#8 ++ x) = .ok .stat) ∧
  (∀ s : State,
    exec .stat s = .next { s with responses := s.responses ++ [if s.ILL then 0x0001#16 else 0x0000#16] }) ∧
  (∀ s : State, zext16 (readStatus s) = if s.ILL then 0x0001#16 else 0x0000#16) ∧
  (∀ c : Config, exec .stat (State.resetOf c) = .next { State.resetOf c with responses := [0x0000#16] }) ∧
  ∀ s : State,
    core.run 2 { s with host := [.command 0x4200#16, .command 0x0700#16] } =
      .next { s with host := [], ILL := true, responses := s.responses ++ [0x0001#16] }

/-- R142: SCLR, with its example. -/
def Obligations.SclrClearsIllOnly : Prop :=
  (∀ x : Byte, decode (0x08#8 ++ x) = .ok .sclr) ∧
  (∀ s : State, exec .sclr s = .next { s with ILL := false }) ∧
  ∀ s : State,
    core.run 3 { s with host := [.command 0x4200#16, .command 0x0800#16, .command 0x0700#16] } =
      .next { s with host := [], ILL := false, responses := s.responses ++ [0x0000#16] }

/-- R143: RST leaves the reset state of R32, is idempotent, equals CINIT, CRCI and SCLR in any order, and its
example: then CRCR, then CXOR 0x00. -/
def Obligations.RstLeavesResetState : Prop :=
  (∀ x : Byte, decode (0xFF#8 ++ x) = .ok .rst) ∧
  (∀ s : State, exec .rst s =
    .next { s with S := ksa s.cfg.KEY, I := 0x00#8, J := 0x00#8, CRC := 0xFFFF#16, ILL := false }) ∧
  (∀ s : State, exec .rst s = .next { State.resetOf s.cfg with host := s.host, responses := s.responses }) ∧
  (∀ s t : State, exec .rst s = .next t → exec .rst t = .next t) ∧
  (∀ (s : State) (l : List Instr), l.Perm [.cinit, .crci, .sclr] → execAll l s = exec .rst s) ∧
  (∀ s : State, ∃ t, execAll [.rst, .crcr, .cxor 0x00#8] s = .next t ∧
    t.responses = s.responses ++ [0xFFFF#16, zext16 (ks s.cfg.KEY 0)]) ∧
  zext16 (ks Config.keyDefault 0) = 0x006E#16

/-- R144: a soft reset and a hardware reset leave the same state. -/
def Obligations.SoftAndHardwareResetAgree : Prop :=
  ∀ (s : State) (x : Byte) (rest : List HostMove),
    step { s with host := .command (0xFF#8 ++ x) :: rest } = step { s with host := .reset :: rest }

/-- R9: what `swap` does to each entry; nothing where the two entries are one. -/
def Obligations.SwapExchangesTwoEntries : Prop :=
  (∀ (S : Table) (a b n : Byte), readTable (swapTable S a b) n =
    if n = a then readTable S b else if n = b then readTable S a else readTable S n) ∧
  ∀ (S : Table) (a : Byte), swapTable S a a = S

/-- R80: the key schedule as a sequence of tables and of values of its local j. -/
def Obligations.KeyScheduleFollowsLoop : Prop :=
  ∀ K : Key, ∃ (T : Nat → Table) (j : Nat → Byte),
    (∀ n : Byte, readTable (T 0) n = n) ∧ j 0 = 0x00#8 ∧
    (∀ (i : Nat) (hi : i % 16 < 16), i < 256 →
      j (i + 1) = j i + readTable (T i) (BitVec.ofNat 8 i) + K[i % 16]'hi ∧
      T (i + 1) = swapTable (T i) (BitVec.ofNat 8 i) (j (i + 1))) ∧
    ksa K = T 256

/-- R86: every step keeps the table a permutation. -/
def Obligations.StepKeepsPermutation : Prop :=
  ∀ s t : State, s.Inv → step s = .next t → t.Inv

/-- R86: the reset state's table is a permutation, for every key. -/
def Obligations.ResetTableIsPermutation : Prop :=
  (∀ c : Config, (State.resetOf c).Inv) ∧ State.reset.Inv

/-- R30: the cipher registers are a function of the key and the number of keystream steps since the last CINIT, RST
or reset, and every step moves that number as R90 says. -/
def Obligations.StepTracksKeystreamPosition : Prop :=
  ∀ (s t : State) (n : Nat), AtPosition s n → step s = .next t → AtPosition t (positionAfterStep s n)

/-- R181 and R30: right after reset the keystream position is 0, and at position n the index I is n mod 256. -/
def Obligations.PositionFixesIndexI : Prop :=
  (∀ c : Config, AtPosition (State.resetOf c) 0) ∧
  ∀ (s : State) (n : Nat), AtPosition s n → s.I = BitVec.ofNat 8 (n % 256)

/-- R23: no step changes KEY. -/
def Obligations.StepKeepsKey : Prop :=
  ∀ s t : State, step s = .next t → t.cfg = s.cfg

/-- R26, the writes of its table (the frame of every command): a register the table does not list for a command is
unchanged, and so is every pending move; a command that responds adds one word to the responses, and no other adds
any. -/
def Obligations.CommandsWriteOnlyTheirRegisters : Prop :=
  ∀ (i : Instr) (s t : State), exec i s = .next t →
    t.cfg = s.cfg ∧ t.host = s.host ∧
    (i.writesCipher = false → t.S = s.S ∧ t.I = s.I ∧ t.J = s.J) ∧
    (i.writesCrc = false → t.CRC = s.CRC) ∧
    (i.writesIll = false → t.ILL = s.ILL) ∧
    (i.responds = true → ∃ r, t.responses = s.responses ++ [r]) ∧
    (i.responds = false → t.responses = s.responses)

/-- R26, the reads of its table: from two states with one key that agree on the registers the table lists as read,
a command writes the same values and gives the same response. -/
def Obligations.CommandsReadOnlyTheirRegisters : Prop :=
  ∀ (i : Instr) (s s' t t' : State), s.cfg = s'.cfg →
    (i.takesKeystreamStep = true → s.cipherRegs = s'.cipherRegs) →
    (i.readsCrc = true → s.CRC = s'.CRC) →
    (i.readsStatus = true → s.ILL = s'.ILL) →
    exec i s = .next t → exec i s' = .next t' →
    (i.writesCipher = true → t.cipherRegs = t'.cipherRegs) ∧
    (i.writesCrc = true → t.CRC = t'.CRC) ∧
    (i.writesIll = true → t.ILL = t'.ILL) ∧
    ∃ out, t.responses = s.responses ++ out ∧ t'.responses = s'.responses ++ out

/-- R70: the response of each command, and of an unassigned opcode. -/
def Obligations.ResponseOfEveryCommand : Prop :=
  (∀ (i : Instr) (s t : State), exec i s = .next t →
    t.responses = s.responses ++
      match i with
      | .cxor b | .cxc b => [zext16 (b ^^^ (prgaStep s.cipherRegs).2)]
      | .crcr => [s.CRC]
      | .stat => [zext16 (readStatus s)]
      | .nop | .cinit | .crci | .crcb _ | .sclr | .rst => []) ∧
  (∀ v : Byte, (zext16 v).extractLsb' 8 8 = 0x00#8 ∧ (zext16 v).extractLsb' 0 8 = v) ∧
  ∀ (s t : State) (op x : Byte) (rest : List HostMove), 0x09#8 ≤ op → op ≤ 0xFE#8 →
    step { s with host := .command (op ++ x) :: rest } = .next t → t.responses = s.responses

/-- R146: only unassigned opcodes set ILL. -/
def Obligations.AssignedCommandsNeverSetIll : Prop :=
  (∀ (i : Instr) (s t : State), exec i s = .next t →
    t.ILL = if i = .sclr ∨ i = .rst then false else s.ILL) ∧
  ∀ (s t : State) (m : HostMove) (rest : List HostMove), s.ILL = false →
    step { s with host := m :: rest } = .next t → t.ILL = true →
    ∃ op x : Byte, 0x09#8 ≤ op ∧ op ≤ 0xFE#8 ∧ m = .command (op ++ x)

/-- R147, for every command but STAT, whose response is ILL (R141; log entry 15): flipping ILL changes nothing but
the ILL that a command leaves alone. For STAT: its registers do not change, whatever ILL is. -/
def Obligations.NoCommandDependsOnIll : Prop :=
  (∀ (i : Instr) (s t : State) (ill : Bool), i ≠ .stat → exec i s = .next t →
    exec i { s with ILL := ill } = .next { t with ILL := if i.writesIll then t.ILL else ill }) ∧
  ∀ (s : State) (ill : Bool), ∃ r, exec .stat { s with ILL := ill } =
    .next { s with ILL := ill, responses := s.responses ++ [r] }

/-- R160: no command can fail, and every command word, assigned or not, completes. -/
def Obligations.EveryCommandWordCompletes : Prop :=
  (∀ (s : State) (cmd : Word) (rest : List HostMove), Completes { s with host := .command cmd :: rest }) ∧
  (∀ (i : Instr) (s : State), ∃ t, exec i s = .next t) ∧ IsEmpty Fault

/-- R48: a step does the host's next move alone: it takes that move, and no later move has a part in its effect. -/
def Obligations.StepTakesOneMoveInOrder : Prop :=
  ∀ (s t : State) (m : HostMove) (rest rest' : List HostMove),
    step { s with host := m :: rest } = .next t →
      t.host = rest ∧ step { s with host := m :: rest' } = .next { t with host := rest' }

/-- R193: a run of any moves comes to its end with every move taken, in a reachable state, and (R185) with one
response for each responding command. -/
def Obligations.RunTakesEveryMove : Prop :=
  ∀ (c : Config) (moves : List HostMove), ∃ t, runMoves c moves = .next t ∧ t.host = [] ∧ Reachable t ∧
    t.responses.length = moves.countP HostMove.responds

/-- R83: the buffer transform, byte by byte. -/
def Obligations.BufferTransformByPosition : Prop :=
  ∀ (B : List Byte) (K : Key), (cipher B K).length = B.length ∧
    ∀ (n : Nat) (h : n < B.length), (cipher B K)[n]? = some (B[n] ^^^ ks K n)

/-- R124: CBUF computes the document's cipher from every state; every other register keeps its value, and the
keystream position is then the buffer's length. -/
def Obligations.CbufCiphersBuffer : Prop :=
  ∀ (s : State) (B : List Byte), ∃ t, execAll (expand (.cbuf B)) s = .next t ∧
    t.responses = s.responses ++ (cipher B s.cfg.KEY).map zext16 ∧
    AtPosition t B.length ∧ t.CRC = s.CRC ∧ t.ILL = s.ILL ∧ t.cfg = s.cfg ∧ t.host = s.host

/-- R87: the involution, of the transform and of the commands. -/
def Obligations.CipherIsItsOwnInverse : Prop :=
  (∀ (K : Key) (B : List Byte), cipher (cipher B K) K = B) ∧
  ∀ (s : State) (B : List Byte), ∃ t u, execAll (expand (.cbuf B)) s = .next t ∧
    t.responses = s.responses ++ (cipher B s.cfg.KEY).map zext16 ∧
    execAll (expand (.cbuf (cipher B s.cfg.KEY))) t = .next u ∧
    u.responses = t.responses ++ B.map zext16

/-- R88: from one state, two buffers of one length meet the same keystream and leave the same cipher registers. -/
def Obligations.KeystreamIgnoresData : Prop :=
  ∀ (s : State) (B B' : List Byte), B.length = B'.length →
    ∃ (t t' : State) (k : List Byte), k.length = B.length ∧
      execAll (B.map .cxor) s = .next t ∧ execAll (B'.map .cxor) s = .next t' ∧
      t.responses = s.responses ++ List.zipWith (fun b y => zext16 (b ^^^ y)) B k ∧
      t'.responses = s.responses ++ List.zipWith (fun b y => zext16 (b ^^^ y)) B' k ∧
      t.S = t'.S ∧ t.I = t'.I ∧ t.J = t'.J

/-- R101: the checksum of a buffer, from 0xFFFF and byte after byte, with no final XOR. -/
def Obligations.ChecksumFoldsFromInitialValue : Prop :=
  crc16 [] = 0xFFFF#16 ∧ ∀ (B : List Byte) (b : Byte), crc16 (B ++ [b]) = crcStep (crc16 B) b

/-- R125 and R106: CRCBUF responds the checksum from every state, and leaves every other register alone. -/
def Obligations.CrcbufComputesChecksum : Prop :=
  ∀ (s : State) (B : List Byte),
    execAll (expand (.crcbuf B)) s = .next { s with CRC := crc16 B, responses := s.responses ++ [crc16 B] }

/-- R126: CXCBUF, with CINIT and CRCI in either order, and the upload stream its responses make. -/
def Obligations.CxcbufComputesUpload : Prop :=
  ∀ (s : State) (Q : List Byte),
    let c := cipher Q s.cfg.KEY
    ∃ t, execAll (expand (.cxcbuf Q)) s = .next t ∧
      t.responses = s.responses ++ c.map zext16 ++ [crc16 c] ∧
      execAll (.crci :: .cinit :: Q.map .cxc ++ [.crcr]) s = .next t ∧
      uploadStream s.cfg.KEY Q = (c.map zext16).map responseByte ++ trailer (crc16 c) ∧
      trailer (crc16 c) = [(crc16 c).extractLsb' 8 8, (crc16 c).extractLsb' 0 8]

/-- R121: CXC is CXOR and then CRCB of its output byte. -/
def Obligations.CxcIsCxorThenCrcb : Prop :=
  ∀ (s : State) (b : Byte), ∃ (t : State) (o : Byte), exec (.cxor b) s = .next t ∧
    t.responses = s.responses ++ [zext16 o] ∧
    ∃ u, exec (.crcb o) t = .next u ∧ exec (.cxc b) s = .next u

/-- R123: NOP, CRCR, STAT, SCLR or an unassigned word in front of any commands but STAT changes neither their
responses nor the registers `S`, `I`, `J` and `CRC` they leave. -/
def Obligations.HarmlessCommandsMayInterleave : Prop :=
  ∀ (v w u : State) (l : List Instr),
    ((∃ i : Instr, i.harmless = true ∧ exec i v = .next w) ∨ (∃ op : Byte, execUnassigned op v = .next w)) →
    .stat ∉ l → execAll l v = .next u →
    ∃ t out, execAll l w = .next t ∧ t.cipherRegs = u.cipherRegs ∧ t.CRC = u.CRC ∧
      u.responses = v.responses ++ out ∧ t.responses = w.responses ++ out

/-- R107: the four facts about the CRC step. -/
def Obligations.CrcStepIsLinearAndInjective : Prop :=
  (∀ (c₁ c₂ : Word) (b₁ b₂ : Byte), crcStep (c₁ ^^^ c₂) (b₁ ^^^ b₂) = crcStep c₁ b₁ ^^^ crcStep c₂ b₂) ∧
  crcStep 0x0000#16 0x00#8 = 0x0000#16 ∧
  (∀ (c c' : Word) (b b' : Byte), c ^^^ (b ++ 0x00#8) = c' ^^^ (b' ++ 0x00#8) → crcStep c b = crcStep c' b') ∧
  ∀ (b : Byte) (c c' : Word), crcStep c b = crcStep c' b → c = c'

/-- R110: the bit-serial form is the same function. -/
def Obligations.BitSerialCrcIsCrcStep : Prop :=
  ∀ (c : Word) (b : Byte), crcSerial c b = crcStep c b

/-- R45: which commands may be repeated with the same result. -/
def Obligations.RepeatableCommands : Prop :=
  (∀ s : State, exec .nop s = .next s) ∧
  (∀ (i : Instr) (s t : State), i = .crcr ∨ i = .stat → exec i s = .next t →
    ∃ r, t = { s with responses := s.responses ++ [r] } ∧
      exec i t = .next { t with responses := t.responses ++ [r] }) ∧
  (∀ (i : Instr) (s t : State), i = .crci ∨ i = .sclr ∨ i = .rst ∨ i = .cinit → exec i s = .next t →
    exec i t = .next t) ∧
  ∀ (op : Byte) (s t : State), execUnassigned op s = .next t → execUnassigned op t = .next t

/-- R68: the source lines that are no assembly error are the well-formed ones, and a command's own line, as a source
line and as text, gives the word that encodes it. How text is read is in part the model's (log entry 14). -/
def Obligations.AssemblerEmitsEncoding : Prop :=
  (∀ src : SourceLine, (∃ w, assembleSource src = .ok w) ↔ src.wellFormed = true) ∧
  (∀ i : Instr, assembleSource i.source = .ok (some (encode i))) ∧
  ∀ i : Instr, assembleLine (writeLine i) = .ok (some (encode i))

/-- R69: what each pseudo-command expands to. -/
def Obligations.PseudoCommandsExpand : Prop :=
  (∀ B : List Byte, expand (.cbuf B) = .cinit :: B.map .cxor) ∧
  (∀ B : List Byte, expand (.crcbuf B) = .crci :: (B.map .crcb ++ [.crcr])) ∧
  (∀ B : List Byte, expand (.cxcbuf B) = .cinit :: .crci :: (B.map .cxc ++ [.crcr])) ∧
  expand (.cbuf []) = [.cinit] ∧ expand (.crcbuf []) = [.crci, .crcr] ∧
  expand (.cxcbuf []) = [.cinit, .crci, .crcr]

/-- R42 and R126: the two trailer bytes are the CRC value, high byte first. -/
def Obligations.TrailerIsHighByteFirst : Prop :=
  ∀ c : Word, ∃ hi lo : Byte, trailer c = [hi, lo] ∧ hi ++ lo = c

/-- R128 (context): zero padding to the next multiple of C, and the upload stream of the empty payload. -/
def Obligations.PaddingReachesChunkMultiple : Prop :=
  (∀ (C : Nat) (B : List Byte), 0 < C →
    ∃ z : Nat, padTo C B = B ++ List.replicate z 0x00#8 ∧ z < C ∧ (padTo C B).length % C = 0) ∧
  ∀ K : Key, padTo chunkSize [] = [] ∧ uploadStream K (padTo chunkSize []) = [0xFF#8, 0xFF#8]
end

