-- ==== Sys2Proof/Laws/State.lean ====
section
/-! SUPPORT. What each update of the state leaves in each field: one lemma per field per update, true by rfl, so that
no later proof unfolds a record update. -/

namespace Sys2Proof.Machine

/-! ### writing the three cipher registers -/

@[simp] theorem withCipherRegs_cfg (s : State) (c : CipherRegs) : (s.withCipherRegs c).cfg = s.cfg := rfl
@[simp] theorem withCipherRegs_S (s : State) (c : CipherRegs) : (s.withCipherRegs c).S = c.S := rfl
@[simp] theorem withCipherRegs_I (s : State) (c : CipherRegs) : (s.withCipherRegs c).I = c.I := rfl
@[simp] theorem withCipherRegs_J (s : State) (c : CipherRegs) : (s.withCipherRegs c).J = c.J := rfl
@[simp] theorem withCipherRegs_CRC (s : State) (c : CipherRegs) : (s.withCipherRegs c).CRC = s.CRC := rfl
@[simp] theorem withCipherRegs_ILL (s : State) (c : CipherRegs) : (s.withCipherRegs c).ILL = s.ILL := rfl
@[simp] theorem withCipherRegs_host (s : State) (c : CipherRegs) : (s.withCipherRegs c).host = s.host := rfl
@[simp] theorem withCipherRegs_responses (s : State) (c : CipherRegs) : (s.withCipherRegs c).responses = s.responses := rfl

/-! ### starting the cipher (rule R84) -/

@[simp] theorem startCipher_cfg (s : State) : (startCipher s).cfg = s.cfg := rfl
@[simp] theorem startCipher_S (s : State) : (startCipher s).S = ksa s.cfg.KEY := rfl
@[simp] theorem startCipher_I (s : State) : (startCipher s).I = 0x00#8 := rfl
@[simp] theorem startCipher_J (s : State) : (startCipher s).J = 0x00#8 := rfl
@[simp] theorem startCipher_CRC (s : State) : (startCipher s).CRC = s.CRC := rfl
@[simp] theorem startCipher_ILL (s : State) : (startCipher s).ILL = s.ILL := rfl
@[simp] theorem startCipher_host (s : State) : (startCipher s).host = s.host := rfl
@[simp] theorem startCipher_responses (s : State) : (startCipher s).responses = s.responses := rfl

/-! ### one keystream step (rules R85 and R120) -/

@[simp] theorem keystreamStep_cfg (s : State) : (keystreamStep s).1.cfg = s.cfg := rfl
@[simp] theorem keystreamStep_S (s : State) : (keystreamStep s).1.S = (prgaStep s.cipherRegs).1.S := rfl
@[simp] theorem keystreamStep_I (s : State) : (keystreamStep s).1.I = (prgaStep s.cipherRegs).1.I := rfl
@[simp] theorem keystreamStep_J (s : State) : (keystreamStep s).1.J = (prgaStep s.cipherRegs).1.J := rfl
@[simp] theorem keystreamStep_CRC (s : State) : (keystreamStep s).1.CRC = s.CRC := rfl
@[simp] theorem keystreamStep_ILL (s : State) : (keystreamStep s).1.ILL = s.ILL := rfl
@[simp] theorem keystreamStep_host (s : State) : (keystreamStep s).1.host = s.host := rfl
@[simp] theorem keystreamStep_responses (s : State) : (keystreamStep s).1.responses = s.responses := rfl

/-! ### starting the checksum (rule R102) -/

@[simp] theorem startCrc_cfg (s : State) : (startCrc s).cfg = s.cfg := rfl
@[simp] theorem startCrc_S (s : State) : (startCrc s).S = s.S := rfl
@[simp] theorem startCrc_I (s : State) : (startCrc s).I = s.I := rfl
@[simp] theorem startCrc_J (s : State) : (startCrc s).J = s.J := rfl
@[simp] theorem startCrc_CRC (s : State) : (startCrc s).CRC = Config.crcInit := rfl
@[simp] theorem startCrc_ILL (s : State) : (startCrc s).ILL = s.ILL := rfl
@[simp] theorem startCrc_host (s : State) : (startCrc s).host = s.host := rfl
@[simp] theorem startCrc_responses (s : State) : (startCrc s).responses = s.responses := rfl

/-! ### folding one byte (rule R103) -/

@[simp] theorem foldCrc_cfg (b : Byte) (s : State) : (foldCrc b s).cfg = s.cfg := rfl
@[simp] theorem foldCrc_S (b : Byte) (s : State) : (foldCrc b s).S = s.S := rfl
@[simp] theorem foldCrc_I (b : Byte) (s : State) : (foldCrc b s).I = s.I := rfl
@[simp] theorem foldCrc_J (b : Byte) (s : State) : (foldCrc b s).J = s.J := rfl
@[simp] theorem foldCrc_CRC (b : Byte) (s : State) : (foldCrc b s).CRC = crcStep s.CRC b := rfl
@[simp] theorem foldCrc_ILL (b : Byte) (s : State) : (foldCrc b s).ILL = s.ILL := rfl
@[simp] theorem foldCrc_host (b : Byte) (s : State) : (foldCrc b s).host = s.host := rfl
@[simp] theorem foldCrc_responses (b : Byte) (s : State) : (foldCrc b s).responses = s.responses := rfl

/-! ### delivering a response (rule R9) -/

@[simp] theorem respond_cfg (v : Word) (s : State) : (respond v s).cfg = s.cfg := rfl
@[simp] theorem respond_S (v : Word) (s : State) : (respond v s).S = s.S := rfl
@[simp] theorem respond_I (v : Word) (s : State) : (respond v s).I = s.I := rfl
@[simp] theorem respond_J (v : Word) (s : State) : (respond v s).J = s.J := rfl
@[simp] theorem respond_CRC (v : Word) (s : State) : (respond v s).CRC = s.CRC := rfl
@[simp] theorem respond_ILL (v : Word) (s : State) : (respond v s).ILL = s.ILL := rfl
@[simp] theorem respond_host (v : Word) (s : State) : (respond v s).host = s.host := rfl
@[simp] theorem respond_responses (v : Word) (s : State) : (respond v s).responses = s.responses ++ [v] := rfl

/-! ### setting ILL (rule R145) -/

@[simp] theorem setIll_cfg (s : State) : (setIll s).cfg = s.cfg := rfl
@[simp] theorem setIll_S (s : State) : (setIll s).S = s.S := rfl
@[simp] theorem setIll_I (s : State) : (setIll s).I = s.I := rfl
@[simp] theorem setIll_J (s : State) : (setIll s).J = s.J := rfl
@[simp] theorem setIll_CRC (s : State) : (setIll s).CRC = s.CRC := rfl
@[simp] theorem setIll_ILL (s : State) : (setIll s).ILL = true := rfl
@[simp] theorem setIll_host (s : State) : (setIll s).host = s.host := rfl
@[simp] theorem setIll_responses (s : State) : (setIll s).responses = s.responses := rfl

/-! ### clearing ILL (rule R142) -/

@[simp] theorem clearIll_cfg (s : State) : (clearIll s).cfg = s.cfg := rfl
@[simp] theorem clearIll_S (s : State) : (clearIll s).S = s.S := rfl
@[simp] theorem clearIll_I (s : State) : (clearIll s).I = s.I := rfl
@[simp] theorem clearIll_J (s : State) : (clearIll s).J = s.J := rfl
@[simp] theorem clearIll_CRC (s : State) : (clearIll s).CRC = s.CRC := rfl
@[simp] theorem clearIll_ILL (s : State) : (clearIll s).ILL = false := rfl
@[simp] theorem clearIll_host (s : State) : (clearIll s).host = s.host := rfl
@[simp] theorem clearIll_responses (s : State) : (clearIll s).responses = s.responses := rfl

/-! ### writing STATUS (rules R143 and R180) -/

@[simp] theorem writeStatus_cfg (v : Byte) (s : State) : (writeStatus v s).cfg = s.cfg := rfl
@[simp] theorem writeStatus_S (v : Byte) (s : State) : (writeStatus v s).S = s.S := rfl
@[simp] theorem writeStatus_I (v : Byte) (s : State) : (writeStatus v s).I = s.I := rfl
@[simp] theorem writeStatus_J (v : Byte) (s : State) : (writeStatus v s).J = s.J := rfl
@[simp] theorem writeStatus_CRC (v : Byte) (s : State) : (writeStatus v s).CRC = s.CRC := rfl
@[simp] theorem writeStatus_ILL (v : Byte) (s : State) : (writeStatus v s).ILL = v.getLsbD 0 := rfl
@[simp] theorem writeStatus_host (v : Byte) (s : State) : (writeStatus v s).host = s.host := rfl
@[simp] theorem writeStatus_responses (v : Byte) (s : State) : (writeStatus v s).responses = s.responses := rfl

/-! ### the hardware reset (rule R180) -/

@[simp] theorem hardwareReset_cfg (s : State) : (hardwareReset s).cfg = s.cfg := rfl
@[simp] theorem hardwareReset_S (s : State) : (hardwareReset s).S = ksa s.cfg.KEY := rfl
@[simp] theorem hardwareReset_I (s : State) : (hardwareReset s).I = 0x00#8 := rfl
@[simp] theorem hardwareReset_J (s : State) : (hardwareReset s).J = 0x00#8 := rfl
@[simp] theorem hardwareReset_CRC (s : State) : (hardwareReset s).CRC = 0xFFFF#16 := rfl
@[simp] theorem hardwareReset_ILL (s : State) : (hardwareReset s).ILL = false := rfl
@[simp] theorem hardwareReset_host (s : State) : (hardwareReset s).host = s.host := rfl
@[simp] theorem hardwareReset_responses (s : State) : (hardwareReset s).responses = s.responses := rfl

/-! ### placing a command as the next move -/

@[simp] theorem issueNext_cfg (cmd : Word) (s : State) : (issueNext cmd s).cfg = s.cfg := rfl
@[simp] theorem issueNext_S (cmd : Word) (s : State) : (issueNext cmd s).S = s.S := rfl
@[simp] theorem issueNext_I (cmd : Word) (s : State) : (issueNext cmd s).I = s.I := rfl
@[simp] theorem issueNext_J (cmd : Word) (s : State) : (issueNext cmd s).J = s.J := rfl
@[simp] theorem issueNext_CRC (cmd : Word) (s : State) : (issueNext cmd s).CRC = s.CRC := rfl
@[simp] theorem issueNext_ILL (cmd : Word) (s : State) : (issueNext cmd s).ILL = s.ILL := rfl
@[simp] theorem issueNext_host (cmd : Word) (s : State) : (issueNext cmd s).host = .command cmd :: s.host := rfl
@[simp] theorem issueNext_responses (cmd : Word) (s : State) : (issueNext cmd s).responses = s.responses := rfl

/-! ### the reset state (rule R32) and a launch (rule R193) -/

@[simp] theorem resetOf_cfg (c : Config) : (State.resetOf c).cfg = c := rfl
@[simp] theorem resetOf_S (c : Config) : (State.resetOf c).S = ksa c.KEY := rfl
@[simp] theorem resetOf_I (c : Config) : (State.resetOf c).I = 0x00#8 := rfl
@[simp] theorem resetOf_J (c : Config) : (State.resetOf c).J = 0x00#8 := rfl
@[simp] theorem resetOf_CRC (c : Config) : (State.resetOf c).CRC = 0xFFFF#16 := rfl
@[simp] theorem resetOf_ILL (c : Config) : (State.resetOf c).ILL = false := rfl
@[simp] theorem resetOf_host (c : Config) : (State.resetOf c).host = [] := rfl
@[simp] theorem resetOf_responses (c : Config) : (State.resetOf c).responses = [] := rfl

@[simp] theorem launch_cfg (c : Config) (moves : List HostMove) : (State.launch c moves).cfg = c := rfl
@[simp] theorem launch_S (c : Config) (moves : List HostMove) : (State.launch c moves).S = ksa c.KEY := rfl
@[simp] theorem launch_I (c : Config) (moves : List HostMove) : (State.launch c moves).I = 0x00#8 := rfl
@[simp] theorem launch_J (c : Config) (moves : List HostMove) : (State.launch c moves).J = 0x00#8 := rfl
@[simp] theorem launch_CRC (c : Config) (moves : List HostMove) : (State.launch c moves).CRC = 0xFFFF#16 := rfl
@[simp] theorem launch_ILL (c : Config) (moves : List HostMove) : (State.launch c moves).ILL = false := rfl
@[simp] theorem launch_host (c : Config) (moves : List HostMove) : (State.launch c moves).host = moves := rfl
@[simp] theorem launch_responses (c : Config) (moves : List HostMove) : (State.launch c moves).responses = [] := rfl

/-! ### the view of the cipher registers -/

@[simp] theorem cipherRegs_S (s : State) : s.cipherRegs.S = s.S := rfl
@[simp] theorem cipherRegs_I (s : State) : s.cipherRegs.I = s.I := rfl
@[simp] theorem cipherRegs_J (s : State) : s.cipherRegs.J = s.J := rfl
@[simp] theorem withCipherRegs_cipherRegs (s : State) (c : CipherRegs) : (s.withCipherRegs c).cipherRegs = c := rfl
@[simp] theorem keystreamStep_cipherRegs (s : State) :
    (keystreamStep s).1.cipherRegs = (prgaStep s.cipherRegs).1 := rfl
@[simp] theorem keystreamStep_byte (s : State) : (keystreamStep s).2 = (prgaStep s.cipherRegs).2 := rfl
@[simp] theorem startCipher_cipherRegs (s : State) : (startCipher s).cipherRegs = freshCipher s.cfg.KEY := rfl
@[simp] theorem startCrc_cipherRegs (s : State) : (startCrc s).cipherRegs = s.cipherRegs := rfl
@[simp] theorem foldCrc_cipherRegs (b : Byte) (s : State) : (foldCrc b s).cipherRegs = s.cipherRegs := rfl
@[simp] theorem respond_cipherRegs (v : Word) (s : State) : (respond v s).cipherRegs = s.cipherRegs := rfl
@[simp] theorem setIll_cipherRegs (s : State) : (setIll s).cipherRegs = s.cipherRegs := rfl
@[simp] theorem clearIll_cipherRegs (s : State) : (clearIll s).cipherRegs = s.cipherRegs := rfl
@[simp] theorem writeStatus_cipherRegs (v : Byte) (s : State) :
    (writeStatus v s).cipherRegs = s.cipherRegs := rfl
@[simp] theorem hardwareReset_cipherRegs (s : State) :
    (hardwareReset s).cipherRegs = freshCipher s.cfg.KEY := rfl
@[simp] theorem resetOf_cipherRegs (c : Config) : (State.resetOf c).cipherRegs = freshCipher c.KEY := rfl

end Sys2Proof.Machine
end

