-- ==== Sys2Proof/Laws/Table.lean ====
section
/-! SUPPORT. The permutation table: what a read gives after a swap and in the identity table (rules R9 and R80). -/

namespace Sys2Proof.Machine

/-- A byte's index into the table, as a number, determines the byte. -/
theorem byte_eq_of_toNat {a b : Byte} (h : a.toNat = b.toNat) : a = b := BitVec.eq_of_toNat_eq h

/-- The first swapped entry holds what the second held. -/
theorem readTable_swapTable_left (S : Table) (a b : Byte) : readTable (swapTable S a b) a = readTable S b := by
  simp [readTable, swapTable]

/-- The second swapped entry holds what the first held. -/
theorem readTable_swapTable_right (S : Table) (a b : Byte) : readTable (swapTable S a b) b = readTable S a := by
  simp [readTable, swapTable]

/-- Every other entry keeps its value. -/
theorem readTable_swapTable_other (S : Table) (a b n : Byte) (ha : n ≠ a) (hb : n ≠ b) :
    readTable (swapTable S a b) n = readTable S n := by
  have ha' : n.toNat ≠ a.toNat := fun h => ha (byte_eq_of_toNat h)
  have hb' : n.toNat ≠ b.toNat := fun h => hb (byte_eq_of_toNat h)
  simp [readTable, swapTable, Vector.getElem_swap_of_ne, ha', hb']

/-- Two tables with the same entries are one table. -/
theorem table_ext {S T : Table} (h : ∀ n, readTable S n = readTable T n) : S = T := by
  apply Vector.ext
  intro n hn
  have := h (BitVec.ofNat 8 n)
  simpa [readTable, Nat.mod_eq_of_lt hn] using this

/-- Every entry of the identity table is its own index. -/
theorem readTable_identityTable (n : Byte) : readTable identityTable n = n := by
  simp [readTable, identityTable, positions]

/-- One keystream step, field by field (rule R81). -/
theorem prgaStep_I (c : CipherRegs) : (prgaStep c).1.I = c.I + 1 := rfl

theorem prgaStep_J (c : CipherRegs) : (prgaStep c).1.J = c.J + readTable c.S (c.I + 1) := rfl

theorem prgaStep_S (c : CipherRegs) :
    (prgaStep c).1.S = swapTable c.S (prgaStep c).1.I (prgaStep c).1.J := rfl

end Sys2Proof.Machine
end

