-- ==== Sys2Proof/Laws/Step.lean ====
section
/-! SUPPORT. What the operations of a step can do: taking a move, decoding a word, one meaning, one step. Later
proofs cite these cases and do not unfold `step` or `exec`. -/

namespace Sys2Proof.Machine

/-- Taking a move: there is none, or the first of the host's list goes and nothing else changes. -/
theorem takeMove_cases (s : State) :
    (s.host = [] ∧ takeMove s = none) ∨
    ∃ m rest, s.host = m :: rest ∧ takeMove s = some (m, { s with host := rest }) := by
  cases h : s.host with
  | nil => exact .inl ⟨rfl, by simp [takeMove, h]⟩
  | cons m rest => exact .inr ⟨m, rest, rfl, by simp [takeMove, h]⟩

/-- A word decodes to a command or its opcode is unassigned. -/
theorem decode_cases (cmd : Word) :
    (∃ i, decode cmd = .ok i) ∨ decode cmd = .error (.unassigned (opcodeOf cmd)) := by
  unfold decode
  split <;> simp

/-- The state a command leads to. -/
def after (i : Instr) (s : State) : State :=
  match exec i s with
  | .next t => t
  | .fault _ => s
  | .refused _ => s

@[simp] theorem after_nop (s : State) : after .nop s = s := rfl
@[simp] theorem after_cinit (s : State) : after .cinit s = startCipher s := rfl
@[simp] theorem after_cxor (b : Byte) (s : State) : after (.cxor b) s =
    respond (zext16 (outputByte b (prgaStep s.cipherRegs).2)) (keystreamStep s).1 := rfl
@[simp] theorem after_crci (s : State) : after .crci s = startCrc s := rfl
@[simp] theorem after_crcb (b : Byte) (s : State) : after (.crcb b) s = foldCrc b s := rfl
@[simp] theorem after_cxc (b : Byte) (s : State) : after (.cxc b) s =
    respond (zext16 (outputByte b (prgaStep s.cipherRegs).2))
      (foldCrc (outputByte b (prgaStep s.cipherRegs).2) (keystreamStep s).1) := rfl
@[simp] theorem after_crcr (s : State) : after .crcr s = respond s.CRC s := rfl
@[simp] theorem after_stat (s : State) : after .stat s = respond (zext16 (readStatus s)) s := rfl
@[simp] theorem after_sclr (s : State) : after .sclr s = clearIll s := rfl
@[simp] theorem after_rst (s : State) :
    after .rst s = writeStatus 0x00#8 (startCrc (startCipher s)) := rfl

/-- Every meaning ends in a next state, the one `after` names (rule R160). -/
theorem exec_eq_after (i : Instr) (s : State) : exec i s = .next (after i s) := by
  cases i <;> rfl

/-- The state a sequence of commands leads to. -/
def afterAll (l : List Instr) (s : State) : State := l.foldl (fun t i => after i t) s

@[simp] theorem afterAll_nil (s : State) : afterAll [] s = s := rfl

@[simp] theorem afterAll_cons (i : Instr) (l : List Instr) (s : State) :
    afterAll (i :: l) s = afterAll l (after i s) := rfl

@[simp] theorem afterAll_append (l m : List Instr) (s : State) :
    afterAll (l ++ m) s = afterAll m (afterAll l s) := List.foldl_append

/-- A sequence of commands ends in a next state, the one `afterAll` names. Rewrite with this rather than unfold
`execAll`: the kernel then never compares two states through the key schedule. -/
theorem execAll_eq_afterAll (l : List Instr) (s : State) : execAll l s = .next (afterAll l s) := by
  induction l generalizing s with
  | nil => rfl
  | cons i l ih => simp only [execAll, exec_eq_after, ih, afterAll_cons]

/-- What a step can do: nothing, a hardware reset, a command, or the effect of an unassigned opcode. -/
theorem step_cases {s t : State} (h : step s = .next t) :
    (s.host = [] ∧ t = s) ∨
    (∃ rest, s.host = .reset :: rest ∧ t = hardwareReset { s with host := rest }) ∨
    (∃ cmd rest i, s.host = .command cmd :: rest ∧ decode cmd = .ok i ∧ t = after i { s with host := rest }) ∨
    (∃ cmd rest, s.host = .command cmd :: rest ∧ decode cmd = .error (.unassigned (opcodeOf cmd)) ∧
      t = setIll { s with host := rest }) := by
  rcases takeMove_cases s with ⟨hh, ht⟩ | ⟨m, rest, hh, ht⟩
  · left
    simp only [step, ht, idle, Host.Outcome.next.injEq] at h
    exact ⟨hh, h.symm⟩
  · right
    cases m with
    | reset =>
      left
      simp only [step, ht, Host.Outcome.next.injEq] at h
      exact ⟨rest, hh, h.symm⟩
    | command cmd =>
      right
      rcases decode_cases cmd with ⟨i, hd⟩ | hd
      · left
        simp only [step, ht, transact, hd, exec_eq_after, Host.Outcome.next.injEq] at h
        exact ⟨cmd, rest, i, hh, hd, h.symm⟩
      · right
        simp only [step, ht, transact, hd, execUnassigned, Host.Outcome.next.injEq] at h
        exact ⟨cmd, rest, hh, hd, h.symm⟩

end Sys2Proof.Machine
end

