-- ==== Sys2Proof/Laws/PerInstr.lean ====
section
/-! SUPPORT. The families of statements made once per command: what its encoded word holds in its two fields
(rules R61 and R63), and that its source line is no assembly error (rule R68). -/

namespace Sys2Proof.Laws

/-- A bit of the word `{op, b}`. -/
theorem getLsbD_commandWord (op b : Byte) (k : Nat) :
    (commandWord op b).getLsbD k = if k < 8 then b.getLsbD k else op.getLsbD (k - 8) :=
  BitVec.getLsbD_append

/-- The opcode field of a word made of an opcode and a byte. -/
theorem opcodeOf_commandWord (op b : Byte) : opcodeOf (commandWord op b) = op := by
  ext k hk
  simp [opcodeOf, getLsbD_commandWord, BitVec.getLsbD_eq_getElem hk]

/-- The operand field of a word made of an opcode and a byte. -/
theorem operandOf_commandWord (op b : Byte) : operandOf (commandWord op b) = b := by
  ext k hk
  simp [operandOf, getLsbD_commandWord, hk]

/-- A command's word holds its mnemonic's opcode, and its data byte or 0x00. -/
def EncodedFields.Statement (i : Instr) : Prop :=
  opcodeOf (encode i) = i.mnemonic.opcode ∧ operandOf (encode i) = i.dataByte.getD 0x00#8

namespace EncodedFields

theorem nop : Statement .nop := ⟨opcodeOf_commandWord _ _, operandOf_commandWord _ _⟩
theorem cinit : Statement .cinit := ⟨opcodeOf_commandWord _ _, operandOf_commandWord _ _⟩
theorem cxor (b : Byte) : Statement (.cxor b) := ⟨opcodeOf_commandWord _ _, operandOf_commandWord _ _⟩
theorem crci : Statement .crci := ⟨opcodeOf_commandWord _ _, operandOf_commandWord _ _⟩
theorem crcb (b : Byte) : Statement (.crcb b) := ⟨opcodeOf_commandWord _ _, operandOf_commandWord _ _⟩
theorem cxc (b : Byte) : Statement (.cxc b) := ⟨opcodeOf_commandWord _ _, operandOf_commandWord _ _⟩
theorem crcr : Statement .crcr := ⟨opcodeOf_commandWord _ _, operandOf_commandWord _ _⟩
theorem stat : Statement .stat := ⟨opcodeOf_commandWord _ _, operandOf_commandWord _ _⟩
theorem sclr : Statement .sclr := ⟨opcodeOf_commandWord _ _, operandOf_commandWord _ _⟩
theorem rst : Statement .rst := ⟨opcodeOf_commandWord _ _, operandOf_commandWord _ _⟩

end EncodedFields

/-- A command is well-formed, whatever its operand byte. -/
def WellFormedSource.Statement (i : Instr) : Prop := i.wellFormed = true

/-- Every byte is a valid operand (rule R63). -/
theorem operandInRange_byte (b : Byte) : operandInRange b.toNat = true := by
  simpa [operandInRange] using b.isLt

namespace WellFormedSource

theorem nop : Statement .nop := rfl
theorem cinit : Statement .cinit := rfl
theorem cxor (b : Byte) : Statement (.cxor b) := operandInRange_byte b
theorem crci : Statement .crci := rfl
theorem crcb (b : Byte) : Statement (.crcb b) := operandInRange_byte b
theorem cxc (b : Byte) : Statement (.cxc b) := operandInRange_byte b
theorem crcr : Statement .crcr := rfl
theorem stat : Statement .stat := rfl
theorem sclr : Statement .sclr := rfl
theorem rst : Statement .rst := rfl

end WellFormedSource

end Sys2Proof.Laws
end

