-- ==== Sys2Proof/Tests/Slice0.lean ====
section
/-! SUPPORT. Tests with values from spec/95_test_vectors.md or worked by hand from the rules, the smoke tests of
WellFormed, and for every statement with hypotheses a witness that meets them. -/

namespace Sys2Proof.Tests

open Sys2Proof.Machine

/-! ### WellFormed: one ill-formed line for each check, refused (rule R68) -/

theorem test_operand_256_is_refused : (SourceLine.command .CXOR (some 256)).wellFormed = false := by decide
theorem test_operand_255_is_accepted : (SourceLine.command .CXOR (some 255)).wellFormed = true := by decide
theorem test_missing_operand_is_refused : (SourceLine.command .CRCB none).wellFormed = false := by decide
theorem test_operand_on_format_N_is_refused : (SourceLine.command .CINIT (some 0)).wellFormed = false := by decide
theorem test_raw_word_65536_is_refused : (SourceLine.rawWord 65536).wellFormed = false := by decide

/-! ### Decoding: one word per command, its bits written out from the encoding column of rule R63 -/

theorem test_decode_nop : decode 0b0000000011111111#16 = .ok .nop := by decide
theorem test_decode_cinit : decode 0b0000000110100101#16 = .ok .cinit := by decide
theorem test_decode_cxor : decode 0b0000001001001000#16 = .ok (.cxor 0x48#8) := by decide
theorem test_decode_crci : decode 0b0000001100000000#16 = .ok .crci := by decide
theorem test_decode_crcb : decode 0b0000010000110001#16 = .ok (.crcb 0x31#8) := by decide
theorem test_decode_cxc : decode 0b0000010110101011#16 = .ok (.cxc 0xAB#8) := by decide
theorem test_decode_crcr : decode 0b0000011000000000#16 = .ok .crcr := by decide
theorem test_decode_stat : decode 0b0000011110000000#16 = .ok .stat := by decide
theorem test_decode_sclr : decode 0b0000100000000001#16 = .ok .sclr := by decide
theorem test_decode_rst : decode 0b1111111100000000#16 = .ok .rst := by decide
theorem test_decode_first_unassigned : decode 0x09FF#16 = .error (.unassigned 0x09#8) := by decide
theorem test_decode_last_unassigned : decode 0xFE00#16 = .error (.unassigned 0xFE#8) := by decide
theorem test_decodeTableWord : decodeTableWord 16 0x0248 = some (.cxor 0x48#8) := by decide

/-- The opcode table's match and mask columns: every row's opcode byte decodes to that row's command. -/
theorem test_opcode_column :
    allMnemonics.map Mnemonic.opcode =
      [0x00#8, 0x01#8, 0x02#8, 0x03#8, 0x04#8, 0x05#8, 0x06#8, 0x07#8, 0x08#8, 0xFF#8] := by decide

/-! ### The assembler (rule R68; the words are those of rule R71 and of program P3) -/

theorem test_assemble_quoted_character :
    assembleLine ['C', 'R', 'C', 'B', ' ', '\'', '1', '\''] = .ok (some 0x0431#16) := by decide +kernel
theorem test_assemble_lower_case_hex_and_comment :
    assembleLine [' ', 'c', 'x', 'o', 'r', ' ', '0', 'x', '4', '8', ' ', ';', 'x'] = .ok (some 0x0248#16) := by
  decide +kernel
theorem test_assemble_decimal_out_of_range :
    assembleLine ['C', 'X', 'C', ' ', '2', '5', '6'] = .error .operandOutOfRange := by decide +kernel
theorem test_assemble_raw_word :
    assembleProgram [['.', 'w', 'o', 'r', 'd', ' ', '0', 'x', '4', '2', '0', '0'], [';'], ['S', 'T', 'A', 'T']] =
      .ok [0x4200#16, 0x0700#16] := by decide +kernel

/-- The model's choice of log entry 18: a pseudo-command has no text form. -/
theorem test_assemble_refuses_pseudo_command :
    assembleLine ['C', 'B', 'U', 'F', ' ', '0', 'x', '4', '8'] = .error .unknownMnemonic := by decide +kernel

/-! ### The CRC step (section 2.5 of spec/95_test_vectors.md) -/

theorem test_crcStep_from_FFFF :
    [0x00#8, 0x01#8, 0x31#8, 0x41#8, 0x80#8, 0xFF#8].map (crcStep 0xFFFF#16) =
      [0xE1F0#16, 0xF1D1#16, 0xC782#16, 0xB915#16, 0x7078#16, 0xFF00#16] := by decide +kernel
theorem test_crcStep_from_0000 :
    [0x00#8, 0x01#8, 0x31#8, 0x41#8, 0x80#8, 0xFF#8].map (crcStep 0x0000#16) =
      [0x0000#16, 0x1021#16, 0x2672#16, 0x58E5#16, 0x9188#16, 0x1EF0#16] := by decide +kernel
theorem test_crc16_two_zero_bytes : crc16 [0x00#8, 0x00#8] = 0x1D0F#16 := by decide +kernel
theorem test_crc16_four_zero_bytes : crc16 [0x00#8, 0x00#8, 0x00#8, 0x00#8] = 0x84C0#16 := by decide +kernel

/-! ### The cipher (sections 1.3, 2.1 and 2.2 of spec/95_test_vectors.md) -/

/-- The keystream of KEY_DEFAULT, positions 0 to 3 (section 2.2). -/
theorem test_keystream_default :
    [ks Config.keyDefault 0, ks Config.keyDefault 1, ks Config.keyDefault 2, ks Config.keyDefault 3] =
      [0x6E#8, 0x26#8, 0x2C#8, 0xF3#8] := by
  simp only [ks, cipherAt, freshCipher, ksa_keyDefault]
  decide +kernel

/-- J after 1, 2, 3 and 4 steps (section 2.2, the state after n keystream steps). -/
theorem test_J_default :
    [(cipherAt Config.keyDefault 1).J, (cipherAt Config.keyDefault 2).J, (cipherAt Config.keyDefault 3).J,
      (cipherAt Config.keyDefault 4).J] = [0x7D#8, 0x15#8, 0x77#8, 0x0D#8] := by
  simp only [cipherAt, freshCipher, ksa_keyDefault]
  decide +kernel

/-- The key 01 02 .. 10 of the RFC 6229 vector X1. -/
def rfcKey : Key :=
  #v[0x01#8, 0x02#8, 0x03#8, 0x04#8, 0x05#8, 0x06#8, 0x07#8, 0x08#8,
     0x09#8, 0x0A#8, 0x0B#8, 0x0C#8, 0x0D#8, 0x0E#8, 0x0F#8, 0x10#8]

/-- The first byte of vector X1. -/
theorem test_keystream_rfc6229 : ks rfcKey 0 = 0x9A#8 := by decide +kernel

/-! ### One command each, on a small state -/

/-- The default key's block with the identity table in place of the scheduled one. -/
def sample : State := { State.resetOf { KEY := Config.keyDefault } with S := identityTable }

/-- I' = 1, J' = 1, t = 2, k = 2 by rule R81: 0x48 XOR 0x02. -/
theorem test_cxor_identity_table : (after (.cxor 0x48#8) sample).responses = [0x004A#16] := by decide +kernel

/-- A swap that does something: J = 4, so I' = 1, J' = 5, S[1] = 5, S[5] = 1, t = 6. -/
theorem test_cxor_swaps :
    readTable (after (.cxor 0x00#8) { sample with J := 0x04#8 }).S 0x01#8 = 0x05#8 ∧
    (after (.cxor 0x00#8) { sample with J := 0x04#8 }).responses = [0x0006#16] := by decide +kernel

/-- The CRC folds the output byte 0x31, not the input byte 0x33 (rule R120). -/
theorem test_cxc_folds_output : (after (.cxc 0x33#8) sample).CRC = 0xC782#16 := by decide +kernel
theorem test_cxc_response : (after (.cxc 0x33#8) sample).responses = [0x0031#16] := by decide +kernel
theorem test_cinit_restarts : (after .cinit { sample with I := 0x05#8, J := 0x07#8 }).J = 0x00#8 := by decide
theorem test_cinit_keeps_crc : (after .cinit { sample with CRC := 0x1234#16 }).CRC = 0x1234#16 := by decide
theorem test_crci : (after .crci { sample with CRC := 0x1200#16 }).CRC = 0xFFFF#16 := by decide

/-- V17: 0x1200 and byte 0x12 give 0x0000. -/
theorem test_crcb_V17 : (after (.crcb 0x12#8) { sample with CRC := 0x1200#16 }).CRC = 0x0000#16 := by
  decide +kernel
theorem test_crcr : (after .crcr { sample with CRC := 0x29B1#16 }).responses = [0x29B1#16] := by decide
theorem test_stat_reads_one : (after .stat { sample with ILL := true }).responses = [0x0001#16] := by decide
theorem test_sclr : (after .sclr { sample with ILL := true }).ILL = false := by decide
theorem test_rst_clears_status : (after .rst { sample with ILL := true }).ILL = false := by decide
theorem test_nop : (after .nop { sample with I := 0xFF#8 }).I = 0xFF#8 := by decide

/-- The very next step after `withFetchWord` runs the word. -/
theorem test_step_runs_fetched_word :
    step (State.reset.withFetchWord 16 0x0431) = exec (.crcb 0x31#8) State.reset := rfl

/-- V20: an unassigned word sets ILL. -/
theorem test_step_unassigned :
    step (sample.withFetchWord 16 0x4200) = .next { sample with ILL := true } := rfl

/-! ### Witnesses: states and operands that meet the hypotheses of the statements -/

theorem witness_DecodeFollowsOpcodeMap :
    (0x09#8 ≤ 0x09#8 ∧ 0x09#8 ≤ 0xFE#8) ∧ (0x09#8 ≤ 0xFE#8 ∧ 0xFE#8 ≤ 0xFE#8) ∧
      ¬ 0xFF#8 ≤ 0xFE#8 ∧ ¬ 0x09#8 ≤ 0x08#8 := by decide
theorem witness_FormatNIgnoresLowByte :
    decode (0x01#8 ++ 0xA5#8) = .ok .cinit ∧ Instr.cinit.mnemonic.format = .N := by decide
theorem witness_DecodeOfEncodeIsIdentity :
    (Instr.cxor 0xFF#8).wellFormed = true ∧ Instr.nop.wellFormed = true := by decide
theorem witness_EncodeOfDecodeKeepsWord :
    decode 0x02FF#16 = .ok (.cxor 0xFF#8) ∧ decode 0xFFFF#16 = .ok .rst := by decide
theorem witness_StepRunsDecodedCommand :
    decode 0x0248#16 = .ok (.cxor 0x48#8) ∧ decodeTableWord 16 0x0248 = some (.cxor 0x48#8) := by decide
theorem witness_UnassignedOpcodeSetsIll :
    (0x09#8 ≤ 0x09#8 ∧ 0x09#8 ≤ 0xFE#8 ∧ 0xFE#8 ≤ 0xFE#8) ∧
      ∃ t, { sample with ILL := true }.ILL = true ∧ Instr.nop ≠ .sclr ∧ Instr.nop ≠ .rst ∧
        exec .nop { sample with ILL := true } = .next t := ⟨by decide, _, rfl, by decide, by decide, rfl⟩
theorem witness_CinitStartsCipher : ∃ t, exec .cinit sample = .next t := ⟨_, rfl⟩

/-- A state that is at position 0: the reset state. -/
theorem witness_CxorCiphersOneByte_position :
    ∃ t, AtPosition State.reset 0 ∧ exec (.cxor 0xFF#8) State.reset = .next t := ⟨_, rfl, rfl⟩
theorem witness_CxorCiphersOneByte_wrap :
    ∃ t, { sample with I := 0xFF#8 }.I = 0xFF#8 ∧ exec (.cxor 0x00#8) { sample with I := 0xFF#8 } = .next t :=
  ⟨_, rfl, rfl⟩

/-- Of the examples of rules R85 and R120: a block built with KEY_DEFAULT. -/
theorem witness_default_key : sample.cfg.KEY = Config.keyDefault := rfl
theorem witness_RstLeavesResetState :
    [Instr.sclr, .cinit, .crci].Perm [.cinit, .crci, .sclr] ∧ ∃ t, exec .rst sample = .next t :=
  ⟨by decide, _, rfl⟩
theorem witness_KeyScheduleFollowsLoop : 0 % 16 < 16 ∧ 0 < 256 ∧ 255 % 16 < 16 ∧ 255 < 256 := by decide

/-- The sample's table is a permutation, and its step ends in a next state. -/
theorem witness_StepKeepsPermutation : ∃ t, sample.Inv ∧ step sample = .next t :=
  ⟨_, fun v => ⟨v, readTable_identityTable v, fun y h => (readTable_identityTable y).symm.trans h⟩, rfl⟩
theorem witness_StepTracksKeystreamPosition :
    ∃ t, AtPosition (issueNext 0x0200#16 State.reset) 0 ∧ step (issueNext 0x0200#16 State.reset) = .next t :=
  ⟨_, rfl, rfl⟩
theorem witness_PositionFixesIndexI : AtPosition State.reset 0 := rfl
theorem witness_StepKeepsKey : ∃ t, step (issueNext 0xFF00#16 State.reset) = .next t := ⟨_, rfl⟩
theorem witness_CommandsWriteOnlyTheirRegisters :
    (∃ t, exec .stat sample = .next t) ∧ Instr.stat.writesCipher = false ∧ Instr.stat.writesCrc = false ∧
      Instr.stat.writesIll = false ∧ Instr.stat.responds = true ∧
      (∃ t, exec .nop sample = .next t) ∧ Instr.nop.responds = false := ⟨⟨_, rfl⟩, rfl, rfl, rfl, rfl, ⟨_, rfl⟩, rfl⟩

/-- Two states with one key and one cipher part, but for `ILL` (CXC), and two that agree on `ILL` alone (STAT, RST). -/
theorem witness_CommandsReadOnlyTheirRegisters :
    ∃ t t', sample.cfg = { sample with ILL := true }.cfg ∧
      sample.cipherRegs = { sample with ILL := true }.cipherRegs ∧ sample.CRC = { sample with ILL := true }.CRC ∧
      exec (.cxc 0x01#8) sample = .next t ∧ exec (.cxc 0x01#8) { sample with ILL := true } = .next t' ∧
      (Instr.cxc 0x01#8).writesCipher = true ∧ (Instr.cxc 0x01#8).writesCrc = true ∧
      sample.ILL = { sample with CRC := 0x0000#16 }.ILL ∧ Instr.stat.readsStatus = true ∧
      Instr.rst.writesIll = true := ⟨_, _, rfl, rfl, rfl, rfl, rfl, rfl, rfl, rfl, rfl, rfl⟩
theorem witness_ResponseOfEveryCommand :
    (∃ t, exec .crcr sample = .next t) ∧
      ∃ t, step { sample with host := [.command (0x09#8 ++ 0xFF#8)] } = .next t := ⟨⟨_, rfl⟩, _, rfl⟩
theorem witness_AssignedCommandsNeverSetIll :
    ∃ t, sample.ILL = false ∧ step { sample with host := [.command 0x4200#16] } = .next t ∧ t.ILL = true :=
  ⟨_, rfl, rfl, rfl⟩
theorem witness_NoCommandDependsOnIll : ∃ t, Instr.rst ≠ .stat ∧ exec .rst sample = .next t := ⟨_, by decide, rfl⟩
theorem witness_StepTakesOneMoveInOrder :
    ∃ t, step { sample with host := [.reset, .command 0x0700#16] } = .next t := ⟨_, rfl⟩
theorem witness_BufferTransformByPosition : 0 < [0x48#8].length := by decide
theorem witness_KeystreamIgnoresData : [0x48#8, 0x69#8].length = [0x00#8, 0xFF#8].length := rfl
theorem witness_HarmlessCommandsMayInterleave :
    ∃ w u w', Instr.crcr.harmless = true ∧ exec .crcr sample = .next w ∧
      execUnassigned 0x42#8 sample = .next w' ∧ Instr.stat ∉ [Instr.crci, .crcr] ∧
      execAll [.crci, .crcr] sample = .next u := ⟨_, _, _, rfl, rfl, rfl, by decide, rfl⟩
theorem witness_CrcStepIsLinearAndInjective :
    0x1200#16 ^^^ (0x12#8 ++ 0x00#8) = 0x0000#16 ^^^ (0x00#8 ++ 0x00#8) ∧
      crcStep 0x0000#16 0x00#8 = crcStep 0x0000#16 0x00#8 := by decide
theorem witness_RepeatableCommands :
    (∃ t, exec .crcr sample = .next t) ∧ (∃ t, exec .sclr sample = .next t) ∧
      ∃ t, execUnassigned 0xFE#8 sample = .next t := ⟨⟨_, rfl⟩, ⟨_, rfl⟩, _, rfl⟩
theorem witness_PaddingReachesChunkMultiple : 0 < 1 ∧ 0 < chunkSize := by decide

end Sys2Proof.Tests
end

section
/-! PROOFS. The state-access primitives of spec/00_scope.md: `swap` on the permutation table (rule R9). -/

namespace Sys2Proof.Machine

/-- Every entry of the table after `swap(S, a, b)` (rule R9), in one equation. -/
theorem readTable_swapTable (S : Table) (a b n : Byte) :
    readTable (swapTable S a b) n =
      if n = a then readTable S b else if n = b then readTable S a else readTable S n := by
  split_ifs with ha hb
  · rw [ha, readTable_swapTable_left]
  · rw [hb, readTable_swapTable_right]
  · exact readTable_swapTable_other S a b n ha hb

/-- A swap of an entry with itself does nothing (rule R9): each entry still reads as before. -/
theorem swapTable_self (S : Table) (a : Byte) : swapTable S a a = S := by
  apply table_ext
  intro n
  by_cases h : n = a
  · rw [h, readTable_swapTable_left]
  · exact readTable_swapTable_other S a a n h h

/-- Settles O22: each entry by whether it is the first swapped one, the second, or neither. -/
theorem swapExchangesTwoEntries : Obligations.SwapExchangesTwoEntries :=
  ⟨readTable_swapTable, swapTable_self⟩

end Sys2Proof.Machine
end

section
/-! PROOFS. What each command leaves in each register, in the order of the access table of spec/10_state.md (rules
R26 and R70): the values it writes, what it keeps, and the one word it may add to the responses. -/

namespace Sys2Proof.Machine

/-- A command leads to the state `after` names, and to no other. -/
theorem eq_after_of_exec {i : Instr} {s t : State} (h : exec i s = .next t) : t = after i s := by
  rw [exec_eq_after] at h
  exact (Host.Outcome.next.inj h).symm

/-- The view of the cipher registers is the three of them. -/
theorem cipherRegs_eq_iff (s t : State) :
    s.cipherRegs = t.cipherRegs ↔ s.S = t.S ∧ s.I = t.I ∧ s.J = t.J := by
  simp [State.cipherRegs]

/-! ### what every command keeps -/

@[simp] theorem after_cfg (i : Instr) (s : State) : (after i s).cfg = s.cfg := by
  cases i <;> simp

@[simp] theorem after_host (i : Instr) (s : State) : (after i s).host = s.host := by
  cases i <;> simp

/-! ### the cipher registers -/

/-- A command takes one keystream step, or starts the cipher again, or leaves the cipher registers alone. -/
theorem after_cipherRegs (i : Instr) (s : State) :
    (after i s).cipherRegs =
      if i.takesKeystreamStep then (prgaStep s.cipherRegs).1
      else if i.writesCipher then freshCipher s.cfg.KEY
      else s.cipherRegs := by
  cases i with
  | cxor | cxc => simp [Instr.takesKeystreamStep]
  | cinit | rst => simp [Instr.takesKeystreamStep, Instr.writesCipher]
  | nop | crci | crcb | crcr | stat | sclr => simp [Instr.takesKeystreamStep, Instr.writesCipher]

/-- A keystream step writes the cipher registers. -/
theorem takesKeystreamStep_of_not_writesCipher {i : Instr} (h : i.writesCipher = false) :
    i.takesKeystreamStep = false := by
  cases i with
  | cxor | cxc => cases h
  | nop | cinit | crci | crcb | crcr | stat | sclr | rst => rfl

theorem after_cipherRegs_of_not_writesCipher {i : Instr} (h : i.writesCipher = false) (s : State) :
    (after i s).cipherRegs = s.cipherRegs := by
  simp [after_cipherRegs, takesKeystreamStep_of_not_writesCipher h, h]

/-! ### the CRC register and ILL -/

theorem after_CRC_of_not_writesCrc {i : Instr} (h : i.writesCrc = false) (s : State) :
    (after i s).CRC = s.CRC := by
  cases i with
  | crci | crcb | cxc | rst => cases h
  | nop | cinit | cxor | crcr | stat | sclr => simp

theorem after_ILL_of_not_writesIll {i : Instr} (h : i.writesIll = false) (s : State) :
    (after i s).ILL = s.ILL := by
  cases i with
  | sclr | rst => cases h
  | nop | cinit | cxor | crci | crcb | cxc | crcr | stat => simp

/-- The two commands that write ILL write 0 (rules R142 and R143). -/
theorem after_ILL_of_writesIll {i : Instr} (h : i.writesIll = true) (s : State) :
    (after i s).ILL = false := by
  cases i with
  | sclr | rst => simp
  | nop | cinit | cxor | crci | crcb | cxc | crcr | stat => cases h

/-! ### the response -/

/-- The response words of a command from `s`: one or none (rule R70). -/
def responseOf (i : Instr) (s : State) : List Word :=
  match i with
  | .cxor b | .cxc b => [zext16 (outputByte b (prgaStep s.cipherRegs).2)]
  | .crcr => [s.CRC]
  | .stat => [zext16 (readStatus s)]
  | .nop | .cinit | .crci | .crcb _ | .sclr | .rst => []

theorem after_responses (i : Instr) (s : State) :
    (after i s).responses = s.responses ++ responseOf i s := by
  cases i with
  | cxor | cxc | crcr | stat => simp [responseOf]
  | nop | cinit | crci | crcb | sclr | rst => simp [responseOf]

theorem responseOf_of_responds {i : Instr} (h : i.responds = true) (s : State) :
    ∃ r, responseOf i s = [r] := by
  cases i with
  | cxor | cxc | crcr | stat => exact ⟨_, rfl⟩
  | nop | cinit | crci | crcb | sclr | rst => cases h

theorem responseOf_of_not_responds {i : Instr} (h : i.responds = false) (s : State) :
    responseOf i s = [] := by
  cases i with
  | cxor | cxc | crcr | stat => cases h
  | nop | cinit | crci | crcb | sclr | rst => rfl

/-- Settles O29: one clause for each register of the access table, from the lemma that says when it is kept. -/
theorem commandsWriteOnlyTheirRegisters : Obligations.CommandsWriteOnlyTheirRegisters := by
  intro i s t h
  obtain rfl := eq_after_of_exec h
  refine ⟨after_cfg i s, after_host i s, fun hw => ?_, fun hw => after_CRC_of_not_writesCrc hw s,
    fun hw => after_ILL_of_not_writesIll hw s, fun hr => ?_, fun hr => ?_⟩
  · exact (cipherRegs_eq_iff _ _).mp (after_cipherRegs_of_not_writesCipher hw s)
  · obtain ⟨r, hr⟩ := responseOf_of_responds hr s
    exact ⟨r, by rw [after_responses, hr]⟩
  · rw [after_responses, responseOf_of_not_responds hr, List.append_nil]

/-! ### what a command reads -/

/-- Two states of blocks with one key that agree on every register the access table lists as read by `i` (rule
R26). -/
structure AgreeOnReads (i : Instr) (s s' : State) : Prop where
  cfg : s.cfg = s'.cfg
  cipher : i.takesKeystreamStep = true → s.cipherRegs = s'.cipherRegs
  crc : i.readsCrc = true → s.CRC = s'.CRC
  status : i.readsStatus = true → s.ILL = s'.ILL

/-- The table and the indices a command writes come from a keystream step, which it reads them for, or from the
key. -/
theorem AgreeOnReads.after_cipherRegs_eq {i : Instr} {s s' : State} (h : AgreeOnReads i s s')
    (hw : i.writesCipher = true) : (after i s).cipherRegs = (after i s').cipherRegs := by
  rw [after_cipherRegs, after_cipherRegs]
  split_ifs with hk
  · rw [h.cipher hk]
  · rw [h.cfg]

theorem AgreeOnReads.after_CRC_eq {i : Instr} {s s' : State} (h : AgreeOnReads i s s')
    (hw : i.writesCrc = true) : (after i s).CRC = (after i s').CRC := by
  cases i with
  | crci | rst => simp
  | crcb b => simp [h.crc rfl]
  | cxc b => simp [h.crc rfl, h.cipher rfl]
  | nop | cinit | cxor | crcr | stat | sclr => cases hw

theorem AgreeOnReads.responseOf_eq {i : Instr} {s s' : State} (h : AgreeOnReads i s s') :
    responseOf i s = responseOf i s' := by
  cases i with
  | cxor b | cxc b => simp [responseOf, h.cipher rfl]
  | crcr => simp [responseOf, h.crc rfl]
  | stat => simp [responseOf, readStatus, h.status rfl]
  | nop | cinit | crci | crcb | sclr | rst => rfl

/-- Settles O30: each written register and the response is a function of what `AgreeOnReads` names. -/
theorem commandsReadOnlyTheirRegisters : Obligations.CommandsReadOnlyTheirRegisters := by
  intro i s s' t t' hcfg hcipher hcrc hstatus ht ht'
  obtain rfl := eq_after_of_exec ht
  obtain rfl := eq_after_of_exec ht'
  have h : AgreeOnReads i s s' := ⟨hcfg, hcipher, hcrc, hstatus⟩
  refine ⟨h.after_cipherRegs_eq, h.after_CRC_eq, fun hw => ?_, responseOf i s, after_responses i s, ?_⟩
  · rw [after_ILL_of_writesIll hw, after_ILL_of_writesIll hw]
  · rw [after_responses, h.responseOf_eq]

end Sys2Proof.Machine
end

section
/-! PROOFS. The reset state and the steps of spec/10_state.md that concern no single command: the values of rule R32,
a step without a move (rule R27), and KEY under every step (rule R23). -/

namespace Sys2Proof.Machine

@[simp] theorem readStatus_resetOf (c : Config) : readStatus (State.resetOf c) = 0x00#8 := rfl

/-- Settles O6: each register's reset value, by the lemma of Laws/State for it. -/
theorem resetStateIsAsTabled : Obligations.ResetStateIsAsTabled :=
  ⟨fun c => ⟨resetOf_S c, resetOf_I c, resetOf_J c, resetOf_CRC c, readStatus_resetOf c, resetOf_ILL c,
    resetOf_cfg c⟩, rfl⟩

/-- With no move of the host to make, the block keeps its state (log entry 3). -/
theorem step_of_host_nil {s : State} (h : s.host = []) : step s = .next s := by
  simp [step, takeMove, h, idle]

/-- Settles O10. -/
theorem stepWithoutMoveKeepsState : Obligations.StepWithoutMoveKeepsState :=
  fun _ => step_of_host_nil rfl

/-- Settles O28: none of the four things a step can do writes the configuration. -/
theorem stepKeepsKey : Obligations.StepKeepsKey := by
  intro s t h
  obtain ⟨-, rfl⟩ | ⟨rest, -, rfl⟩ | ⟨cmd, rest, i, -, -, rfl⟩ | ⟨cmd, rest, -, -, rfl⟩ := step_cases h
  · rfl
  · exact hardwareReset_cfg _
  · exact after_cfg i _
  · exact setIll_cfg _

end Sys2Proof.Machine
end

section
/-! PROOFS. The keystream position (rules R30 and R90): the cipher registers are `cipherAt` of the key and a position,
and every step moves the position as the rules say. -/

namespace Sys2Proof.Machine

/-! ### the position of a state -/

/-- A keystream step taken `n` steps after a key schedule ends `n + 1` steps after it. -/
theorem AtPosition.prgaStep_eq {s : State} {n : Nat} (h : AtPosition s n) :
    (prgaStep s.cipherRegs).1 = cipherAt s.cfg.KEY (n + 1) := by
  rw [h, cipherAt]

/-- The position is one of the key and the cipher registers alone. -/
theorem AtPosition.congr {s t : State} {n : Nat} (h : AtPosition s n) (hcfg : t.cfg = s.cfg)
    (hregs : t.cipherRegs = s.cipherRegs) : AtPosition t n := by
  rw [AtPosition, hcfg, hregs]
  exact h

/-- Right after a key schedule the position is 0. -/
theorem atPosition_zero {s : State} (h : s.cipherRegs = freshCipher s.cfg.KEY) : AtPosition s 0 := h

/-! ### what a move does to the position -/

/-- The three ways a command moves the position, by what it does to the cipher registers. -/
theorem positionAfterInstr_eq (i : Instr) (n : Nat) :
    positionAfterInstr i n = if i.takesKeystreamStep then n + 1 else if i.writesCipher then 0 else n := by
  cases i with
  | cxor | cxc => rfl
  | cinit | rst => rfl
  | nop | crci | crcb | crcr | stat | sclr => rfl

theorem positionAfterStep_nil {s : State} (h : s.host = []) (n : Nat) : positionAfterStep s n = n := by
  simp [positionAfterStep, h]

theorem positionAfterStep_cons {s : State} {m : HostMove} {rest : List HostMove} (h : s.host = m :: rest)
    (n : Nat) : positionAfterStep s n = positionAfterMove m n := by
  simp [positionAfterStep, h]

theorem positionAfterMove_of_decode_ok {cmd : Word} {i : Instr} (h : decode cmd = .ok i) (n : Nat) :
    positionAfterMove (.command cmd) n = positionAfterInstr i n := by
  simp [positionAfterMove, h]

theorem positionAfterMove_of_decode_error {cmd : Word} {e : DecodeError} (h : decode cmd = .error e) (n : Nat) :
    positionAfterMove (.command cmd) n = n := by
  simp [positionAfterMove, h]

/-- Every command leads to the position `positionAfterInstr` names: one on by a keystream step, 0 by a new key
schedule, and otherwise the old one. -/
theorem AtPosition.after {s : State} {n : Nat} (h : AtPosition s n) (i : Instr) :
    AtPosition (after i s) (positionAfterInstr i n) := by
  rw [AtPosition, after_cipherRegs, after_cfg, positionAfterInstr_eq]
  split_ifs
  · exact h.prgaStep_eq
  · rfl
  · exact h

/-- Settles O26: one case for each thing a step can do. -/
theorem stepTracksKeystreamPosition : Obligations.StepTracksKeystreamPosition := by
  intro s t n h hstep
  obtain ⟨hh, rfl⟩ | ⟨rest, hh, rfl⟩ | ⟨cmd, rest, i, hh, hd, rfl⟩ | ⟨cmd, rest, hh, hd, rfl⟩ :=
    step_cases hstep
  · rw [positionAfterStep_nil hh]
    exact h
  · rw [positionAfterStep_cons hh]
    exact atPosition_zero (hardwareReset_cipherRegs _)
  · rw [positionAfterStep_cons hh, positionAfterMove_of_decode_ok hd]
    have htaken : AtPosition { s with host := rest } n := h.congr rfl rfl
    exact htaken.after i
  · rw [positionAfterStep_cons hh, positionAfterMove_of_decode_error hd]
    exact h.congr rfl rfl

/-! ### the position and the index I -/

/-- I counts the keystream steps from 0, one by one (rule R81). -/
theorem cipherAt_I (K : Key) (n : Nat) : (cipherAt K n).I = BitVec.ofNat 8 n := by
  induction n with
  | zero => rfl
  | succ n ih =>
    rw [cipherAt, prgaStep_I, ih, BitVec.ofNat_add]
    rfl

/-- Settles O27: the reset state is fresh from the key schedule, and I is that of `cipherAt`. -/
theorem positionFixesIndexI : Obligations.PositionFixesIndexI := by
  refine ⟨fun c => atPosition_zero (resetOf_cipherRegs c), fun s n h => ?_⟩
  calc s.I = (cipherAt s.cfg.KEY n).I := congrArg CipherRegs.I h
    _ = BitVec.ofNat 8 n := cipherAt_I _ n
    _ = BitVec.ofNat 8 (n % 256) := BitVec.eq_of_toNat_eq (by simp)

end Sys2Proof.Machine
end

section
/-! PROOFS. Order and repetition of commands and the byte order of the trailer (spec/20_memory.md): a step does one
move of the host and never looks at the moves behind it (rule R48), the commands that may be issued again with the
same result (rule R45), and the two trailer bytes (rule R42). -/

namespace Sys2Proof.Machine

/-! ### one step is one move -/

/-- The state a move of the host leads to, from the state it is taken out of. -/
def afterMove (m : HostMove) (s : State) : State :=
  match m with
  | .reset => hardwareReset s
  | .command cmd =>
    match decode cmd with
    | .ok i => after i s
    | .error _ => setIll s

@[simp] theorem afterMove_reset (s : State) : afterMove .reset s = hardwareReset s := rfl

theorem afterMove_of_decode_ok {cmd : Word} {i : Instr} (h : decode cmd = .ok i) (s : State) :
    afterMove (.command cmd) s = after i s := by
  simp [afterMove, h]

theorem afterMove_of_decode_error {cmd : Word} {e : DecodeError} (h : decode cmd = .error e) (s : State) :
    afterMove (.command cmd) s = setIll s := by
  simp [afterMove, h]

/-- A transaction always completes, in the state `afterMove` names. -/
theorem transact_eq_afterMove (cmd : Word) (s : State) : transact cmd s = .next (afterMove (.command cmd) s) := by
  obtain ⟨i, hd⟩ | hd := decode_cases cmd
  · simp [transact, hd, exec_eq_after, afterMove_of_decode_ok hd]
  · simp [transact, hd, execUnassigned, afterMove_of_decode_error hd]

/-- A step takes the host's next move off the list and does it. -/
theorem step_of_host_cons {s : State} {m : HostMove} {rest : List HostMove} (h : s.host = m :: rest) :
    step s = .next (afterMove m { s with host := rest }) := by
  cases m with
  | reset => simp [step, takeMove, h]
  | command cmd => simp [step, takeMove, h, transact_eq_afterMove]

/-! ### no move looks at the moves behind it -/

/-- A command does the same whatever the host does next. -/
theorem after_with_host (i : Instr) (s : State) (l : List HostMove) :
    after i { s with host := l } = { after i s with host := l } := by
  cases i <;> rfl

theorem afterMove_with_host (m : HostMove) (s : State) (l : List HostMove) :
    afterMove m { s with host := l } = { afterMove m s with host := l } := by
  cases m with
  | reset => rfl
  | command cmd =>
    obtain ⟨i, hd⟩ | hd := decode_cases cmd
    · simp only [afterMove_of_decode_ok hd, after_with_host]
    · simp only [afterMove_of_decode_error hd]
      rfl

/-- Settles O35: a step is `afterMove` of the first move, and `afterMove` only carries the list along. -/
theorem stepTakesOneMoveInOrder : Obligations.StepTakesOneMoveInOrder := by
  intro s t m rest rest' h
  have hstep (l : List HostMove) :
      step { s with host := m :: l } = .next { afterMove m s with host := l } := by
    rw [step_of_host_cons rfl]
    exact congrArg _ (afterMove_with_host m s l)
  rw [hstep] at h
  obtain rfl := Host.Outcome.next.inj h
  exact ⟨rfl, hstep rest'⟩

/-! ### commands issued twice -/

/-- These four write registers only with constants or with what KEY fixes, and none of them writes KEY, so a second
one writes the same values again. -/
theorem after_after_of_writes_constants {i : Instr} (h : i = .crci ∨ i = .sclr ∨ i = .rst ∨ i = .cinit)
    (s : State) : after i (after i s) = after i s := by
  obtain rfl | rfl | rfl | rfl := h <;> rfl

theorem setIll_setIll (s : State) : setIll (setIll s) = setIll s := rfl

/-- The two commands that only read: the state changes by the one response, and that response is not read back. -/
theorem after_eq_respond_twice {i : Instr} (h : i = .crcr ∨ i = .stat) (s : State) :
    ∃ r, after i s = respond r s ∧ after i (respond r s) = respond r (respond r s) := by
  obtain rfl | rfl := h
  · exact ⟨s.CRC, rfl, rfl⟩
  · exact ⟨zext16 (readStatus s), rfl, rfl⟩

/-- Settles O48: the four rows of rule R45's table with a repeatable command. -/
theorem repeatableCommands : Obligations.RepeatableCommands := by
  refine ⟨exec_eq_after .nop, fun i s t hi h => ?_, fun i s t hi h => ?_, fun op s t h => ?_⟩
  · obtain rfl := eq_after_of_exec h
    obtain ⟨r, hfirst, hsecond⟩ := after_eq_respond_twice hi s
    refine ⟨r, hfirst, ?_⟩
    rw [exec_eq_after, hfirst, hsecond]
    rfl
  · obtain rfl := eq_after_of_exec h
    rw [exec_eq_after, after_after_of_writes_constants hi]
  · obtain rfl := Host.Outcome.next.inj h
    exact congrArg Host.Outcome.next (setIll_setIll s)

/-! ### the trailer -/

/-- Settles O51: the two halves of a word, put together again, are the word. -/
theorem trailerIsHighByteFirst : Obligations.TrailerIsHighByteFirst := by
  intro c
  have hhalves : c.extractLsb' 8 8 ++ c.extractLsb' 0 8 = c :=
    BitVec.extractLsb'_append_extractLsb' (w := 8) (len := 8)
  exact ⟨_, _, rfl, hhalves⟩

end Sys2Proof.Machine
end

section
/-! PROOFS. The decoder and the encoder of spec/30_encoding.md, by the two fields of a word (rules R61, R65, R66 and
R68): which words decode to a command, which to none, and that the encoder is the way back. -/

namespace Sys2Proof.Machine

open Sys2Proof.Laws

/-! ### formats and opcodes -/

/-- A command with a data byte is one of format B (rule R61). -/
theorem format_eq_B_of_dataByte {i : Instr} {b : Byte} (h : i.dataByte = some b) : i.mnemonic.format = .B := by
  cases i with
  | cxor | crcb | cxc => rfl
  | nop | cinit | crci | crcr | stat | sclr | rst => cases h

/-- A command without a data byte is one of format N (rule R61). -/
theorem format_eq_N_of_dataByte {i : Instr} (h : i.dataByte = none) : i.mnemonic.format = .N := by
  cases i with
  | cxor | crcb | cxc => cases h
  | nop | cinit | crci | crcr | stat | sclr | rst => rfl

/-- A format N command has no data byte (rule R61). -/
theorem dataByte_eq_none_of_format {i : Instr} (h : i.mnemonic.format = .N) : i.dataByte = none := by
  cases hb : i.dataByte with
  | none => rfl
  | some b => simp [format_eq_B_of_dataByte hb] at h

/-- No mnemonic has an opcode of the unassigned range 0x09 to 0xFE (rules R63 and R64). -/
theorem opcode_not_unassigned (m : Mnemonic) : ¬ (0x09#8 ≤ m.opcode ∧ m.opcode ≤ 0xFE#8) := by
  cases m <;> decide

/-! ### a word by its two fields -/

/-- A word is its opcode field and its operand field, put together (rule R61). -/
theorem commandWord_fields (w : Word) : commandWord (opcodeOf w) (operandOf w) = w :=
  BitVec.extractLsb'_append_extractLsb' (w := 8) (len := 8)

/-- A word with its operand field at 0 is the word with bits 7:0 cleared. -/
theorem commandWord_opcodeOf_zero (w : Word) : commandWord (opcodeOf w) 0x00#8 = w &&& 0xFF00#16 := by
  have hmask : commandWord (opcodeOf w) (operandOf w) &&& (0xFF#8 ++ 0x00#8) =
      (opcodeOf w &&& 0xFF#8) ++ (operandOf w &&& 0x00#8) := BitVec.and_append
  have hones : opcodeOf w &&& 0xFF#8 = opcodeOf w := BitVec.and_allOnes
  have hzero : operandOf w &&& 0x00#8 = 0x00#8 := BitVec.and_zero
  rw [commandWord_fields, hones, hzero] at hmask
  exact hmask.symm

theorem opcodeOf_encode (i : Instr) : opcodeOf (encode i) = i.mnemonic.opcode := opcodeOf_commandWord _ _

theorem operandOf_encode (i : Instr) : operandOf (encode i) = i.dataByte.getD 0x00#8 := operandOf_commandWord _ _

/-! ### what a word decodes to -/

/-- The decoder on the words of commands (rule R66): the opcode is the command's, and so is the operand where the
command has one. -/
theorem decode_eq_ok_iff (w : Word) (i : Instr) :
    decode w = .ok i ↔ opcodeOf w = i.mnemonic.opcode ∧ ∀ b ∈ i.dataByte, operandOf w = b := by
  constructor
  · intro h
    unfold decode at h
    split at h <;> cases h
    all_goals
      next hop => exact ⟨BitVec.eq_of_toNat_eq hop, by simp [Instr.dataByte]⟩
  · rintro ⟨hop, hb⟩
    cases i with
    | cxor b | crcb b | cxc b => simp [decode, hop, Instr.mnemonic, Mnemonic.opcode, hb b rfl]
    | nop | cinit | crci | crcr | stat | sclr | rst => simp [decode, hop, Instr.mnemonic, Mnemonic.opcode]

/-- A format N command's opcode decodes to it with every low byte (rule R65). -/
theorem decode_append_of_no_dataByte {op b : Byte} (i : Instr) (hi : i.dataByte = none)
    (hop : op = i.mnemonic.opcode) : decode (op ++ b) = .ok i :=
  (decode_eq_ok_iff _ i).mpr ⟨(opcodeOf_commandWord op b).trans hop, by simp [hi]⟩

/-- A format B command's opcode decodes to it with its data byte as low byte (rule R62). -/
theorem decode_append_of_dataByte {op b : Byte} (i : Instr) (hi : i.dataByte = some b)
    (hop : op = i.mnemonic.opcode) : decode (op ++ b) = .ok i := by
  refine (decode_eq_ok_iff _ i).mpr ⟨(opcodeOf_commandWord op b).trans hop, fun c hc => ?_⟩
  obtain rfl : b = c := Option.some.inj (hi.symm.trans hc)
  exact operandOf_commandWord op b

/-- An opcode from 0x09 to 0xFE is unassigned, whatever the low byte (rules R64 and R66). -/
theorem decode_append_of_unassigned {op b : Byte} (hlo : 0x09#8 ≤ op) (hhi : op ≤ 0xFE#8) :
    decode (op ++ b) = .error (.unassigned op) := by
  have hop : opcodeOf (op ++ b) = op := opcodeOf_commandWord op b
  obtain ⟨i, hi⟩ | herror := decode_cases (op ++ b)
  · obtain ⟨hassigned, -⟩ := (decode_eq_ok_iff _ i).mp hi
    rw [hop] at hassigned
    subst hassigned
    exact absurd ⟨hlo, hhi⟩ (opcode_not_unassigned i.mnemonic)
  · rw [herror, hop]

/-- Settles O2: the rows of the opcode map by their format, and the unassigned range. -/
theorem decodeFollowsOpcodeMap : Obligations.DecodeFollowsOpcodeMap := fun _ b =>
  ⟨decode_append_of_no_dataByte .nop rfl, decode_append_of_no_dataByte .cinit rfl,
    decode_append_of_dataByte (.cxor b) rfl, decode_append_of_no_dataByte .crci rfl,
    decode_append_of_dataByte (.crcb b) rfl, decode_append_of_dataByte (.cxc b) rfl,
    decode_append_of_no_dataByte .crcr rfl, decode_append_of_no_dataByte .stat rfl,
    decode_append_of_no_dataByte .sclr rfl, decode_append_of_no_dataByte .rst rfl, decode_append_of_unassigned⟩

/-! ### decoding and encoding -/

/-- The decoder gives back every encoded command: the two fields of its word are its own. -/
theorem decode_encode (i : Instr) : decode (encode i) = .ok i := by
  refine (decode_eq_ok_iff _ i).mpr ⟨opcodeOf_encode i, fun b hb => ?_⟩
  rw [operandOf_encode, Option.mem_def.mp hb, Option.getD_some]

/-- Settles O4: every command is well-formed, so the round trip asks no hypothesis of it. -/
theorem decodeOfEncodeIsIdentity : Obligations.DecodeOfEncodeIsIdentity :=
  fun i _ => decode_encode i

/-- Settles O5: the encoded command has the word's opcode, and its low byte too where it is the data byte. -/
theorem encodeOfDecodeKeepsWord : Obligations.EncodeOfDecodeKeepsWord := by
  intro w i h
  obtain ⟨hop, hoperand⟩ := (decode_eq_ok_iff w i).mp h
  cases hb : i.dataByte with
  | some b =>
    rw [format_eq_B_of_dataByte hb]
    calc encode i = commandWord (opcodeOf w) (operandOf w) := by rw [encode, hb, ← hop, hoperand b hb]; rfl
      _ = w := commandWord_fields w
  | none =>
    rw [format_eq_N_of_dataByte hb]
    calc encode i = commandWord (opcodeOf w) 0x00#8 := by rw [encode, hb, ← hop]; rfl
      _ = w &&& 0xFF00#16 := commandWord_opcodeOf_zero w

/-- Settles O1: each example word is the encoding of its command, and decodes by the round trip. -/
theorem specExampleWordsDecode : Obligations.SpecExampleWordsDecode :=
  ⟨⟨rfl, rfl, rfl, rfl, rfl, rfl, rfl, rfl⟩,
    ⟨decode_encode .cinit, decode_encode (.cxor 0x48#8), decode_encode (.crcb 0x31#8), decode_encode (.cxc 0x00#8),
      decode_encode .crcr, decode_encode .stat, decode_encode .sclr, decode_encode .rst⟩,
    decode_append_of_no_dataByte (op := 0x01#8) (b := 0xA5#8) .cinit rfl rfl,
    decode_append_of_unassigned (op := 0x42#8) (b := 0x00#8) (by decide) (by decide)⟩

/-! ### a step on a command word -/

/-- Issuing a word that decodes to a command runs that command, with the word taken off the host's list. -/
theorem step_command_of_decode_ok {cmd : Word} {i : Instr} (h : decode cmd = .ok i) (s : State)
    (rest : List HostMove) : step { s with host := .command cmd :: rest } = exec i { s with host := rest } := by
  rw [step_of_host_cons rfl, afterMove_of_decode_ok h, exec_eq_after]

/-- Issuing a word that decodes to no command sets ILL and does nothing else (rule R145). -/
theorem step_command_of_decode_error {cmd : Word} {e : DecodeError} (h : decode cmd = .error e) (s : State)
    (rest : List HostMove) :
    step { s with host := .command cmd :: rest } = .next (setIll { s with host := rest }) := by
  rw [step_of_host_cons rfl, afterMove_of_decode_error h]

/-- A word of the opcode table is read as the decoder reads it. -/
theorem decode_tableWord_of_decodeTableWord {nbits w : Nat} {i : Instr} (h : decodeTableWord nbits w = some i) :
    decode (tableWord nbits w) = .ok i := by
  unfold decodeTableWord at h
  split at h
  next hd => rw [hd, Option.some.inj h]
  next => cases h

/-- Settles O8: both clauses are the step on a command word; taking the placed word off gives back the host's list. -/
theorem stepRunsDecodedCommand : Obligations.StepRunsDecodedCommand :=
  ⟨fun s _ rest _ h => step_command_of_decode_ok h s rest,
    fun s _ _ h => step_command_of_decode_ok (decode_tableWord_of_decodeTableWord h) s s.host⟩

/-- Settles O3: both words decode to the one command, and a step is what the word decodes to. -/
theorem formatNIgnoresLowByte : Obligations.FormatNIgnoresLowByte := by
  refine ⟨fun op x y i hx hN => ?_, fun i hN => ?_⟩
  · obtain ⟨hop, -⟩ := (decode_eq_ok_iff _ i).mp hx
    have hy : decode (op ++ y) = .ok i :=
      decode_append_of_no_dataByte i (dataByte_eq_none_of_format hN) ((opcodeOf_commandWord op x).symm.trans hop)
    refine ⟨hy, fun s rest => ?_⟩
    rw [step_command_of_decode_ok hy, step_command_of_decode_ok hx]
  · calc (encode i).extractLsb' 0 8 = i.dataByte.getD 0x00#8 := operandOf_encode i
      _ = 0x00#8 := by rw [dataByte_eq_none_of_format hN, Option.getD_none]

/-! ### the response word -/

/-- A zero-extended byte is the byte under eight 0 bits (rule R8). -/
theorem zext16_eq_append (v : Byte) : zext16 v = 0x00#8 ++ v :=
  BitVec.setWidth_eq_append (by decide : 8 ≤ 16)

/-- Settles O31: the responses of `after`, the two fields of a zero-extended byte, and the step on an unassigned
word. -/
theorem responseOfEveryCommand : Obligations.ResponseOfEveryCommand := by
  refine ⟨fun i s t h => ?_, fun v => ?_, fun s t op x rest hlo hhi h => ?_⟩
  · obtain rfl := eq_after_of_exec h
    rw [after_responses]
    cases i with
    | cxor | cxc | crcr | stat => rfl
    | nop | cinit | crci | crcb | sclr | rst => rfl
  · rw [zext16_eq_append]
    exact ⟨opcodeOf_commandWord 0x00#8 v, operandOf_commandWord 0x00#8 v⟩
  · rw [step_command_of_decode_error (decode_append_of_unassigned hlo hhi)] at h
    obtain rfl := Host.Outcome.next.inj h
    exact setIll_responses _

/-! ### the pseudo-commands -/

/-- Settles O50: each expansion is its row of rule R69, and the empty buffer gives no command of its own. -/
theorem pseudoCommandsExpand : Obligations.PseudoCommandsExpand :=
  ⟨fun _ => rfl, fun _ => rfl, fun _ => rfl, rfl, rfl, rfl⟩

end Sys2Proof.Machine
end

section
/-! PROOFS. The assembler of rule R68: which source lines it takes, the word it emits for a command's source line, and
that the text written for a command is read as that source line (log entry 14). -/

namespace Sys2Proof.Machine

open Sys2Proof.Laws

/-! ### source lines -/

/-- The errors of the assembler are the ill-formed source lines, by the form of the line and the mnemonic's format. -/
theorem assembleSource_ok_iff (src : SourceLine) :
    (∃ w, assembleSource src = .ok w) ↔ src.wellFormed = true := by
  cases src with
  | blank => simp [assembleSource, SourceLine.wellFormed]
  | command m operand =>
    cases operand with
    | none => cases hf : m.format <;> simp [assembleSource, SourceLine.wellFormed, hf]
    | some n =>
      cases hf : m.format with
      | N => simp [assembleSource, SourceLine.wellFormed, hf]
      | B => cases hn : operandInRange n <;> simp [assembleSource, SourceLine.wellFormed, hf, hn]
  | rawWord n => cases hn : rawWordInRange n <;> simp [assembleSource, SourceLine.wellFormed, hn]

/-- A command's source line emits its encoding: 0x00 in the ignored bits, or the data byte, which is in range. -/
theorem assembleSource_source (i : Instr) : assembleSource i.source = .ok (some (encode i)) := by
  cases hb : i.dataByte with
  | none => simp [Instr.source, assembleSource, encode, hb, format_eq_N_of_dataByte hb]
  | some b =>
    simp [Instr.source, assembleSource, encode, hb, format_eq_B_of_dataByte hb, operandInRange_byte]

/-! ### characters that stand for themselves in a line -/

/-- A row of characters that neither white space nor a comment breaks up. -/
def Unbroken (cs : List Char) : Prop := ∀ c ∈ cs, c.isWhitespace = false ∧ c ≠ ';'

theorem Unbroken.reverse {cs : List Char} (h : Unbroken cs) : Unbroken cs.reverse :=
  fun c hc => h c (List.mem_reverse.mp hc)

/-- A row that begins with an unbroken one has no white space at its start. -/
theorem dropWhile_isWhitespace_append {cs : List Char} (hne : cs ≠ []) (hcs : Unbroken cs) (rest : List Char) :
    (cs ++ rest).dropWhile Char.isWhitespace = cs ++ rest := by
  cases cs with
  | nil => exact absurd rfl hne
  | cons c cs => simp [(hcs c List.mem_cons_self).1]

/-- A row that ends with an unbroken one has no white space at its end. -/
theorem dropWhile_isWhitespace_reverse_append {cs : List Char} (hne : cs ≠ []) (hcs : Unbroken cs)
    (front : List Char) : (front ++ cs).reverse.dropWhile Char.isWhitespace = (front ++ cs).reverse := by
  rw [List.reverse_append]
  exact dropWhile_isWhitespace_append (by simpa using hne) hcs.reverse _

/-- An unbroken row stands after the blank that separates it from what comes before. -/
theorem trimBlanks_blank_cons {cs : List Char} (hne : cs ≠ []) (hcs : Unbroken cs) :
    trimBlanks (' ' :: cs) = cs := by
  have hfront : (' ' :: cs).dropWhile Char.isWhitespace = cs := by
    simpa using dropWhile_isWhitespace_append hne hcs []
  have hback : cs.reverse.dropWhile Char.isWhitespace = cs.reverse := dropWhile_isWhitespace_reverse_append hne hcs []
  rw [trimBlanks, hfront, hback, List.reverse_reverse]

section TwoWords

variable {name operand : List Char} (hname : Unbroken name) (hoperand : Unbroken operand)

include hname hoperand in
/-- Two unbroken rows with a blank between them hold no comment. -/
theorem takeWhile_comment_two_words :
    (name ++ ' ' :: operand).takeWhile (fun c => c != ';') = name ++ ' ' :: operand := by
  refine List.takeWhile_eq_self_iff.mpr fun c hc => bne_iff_ne.mpr ?_
  obtain hc | rfl | hc : c ∈ name ∨ c = ' ' ∨ c ∈ operand := by simpa using hc
  · exact (hname c hc).2
  · decide
  · exact (hoperand c hc).2

include hname hoperand in
/-- Two unbroken rows with a blank between them have nothing to trim. -/
theorem trimBlanks_two_words (hnne : name ≠ []) (hone : operand ≠ []) :
    trimBlanks (name ++ ' ' :: operand) = name ++ ' ' :: operand := by
  have hback : (name ++ ' ' :: operand).reverse.dropWhile Char.isWhitespace = (name ++ ' ' :: operand).reverse := by
    simpa using dropWhile_isWhitespace_reverse_append hone hoperand (name ++ [' '])
  rw [trimBlanks, dropWhile_isWhitespace_append hnne hname, hback, List.reverse_reverse]

include hname in
/-- The name of a line is what comes before its first blank. -/
theorem takeWhile_name_two_words :
    (name ++ ' ' :: operand).takeWhile (fun c => !c.isWhitespace) = name := by
  rw [List.takeWhile_append_of_pos fun c hc => by simp [(hname c hc).1]]
  simp

include hname in
/-- After the name of a line comes the first blank. -/
theorem dropWhile_name_two_words :
    (name ++ ' ' :: operand).dropWhile (fun c => !c.isWhitespace) = ' ' :: operand := by
  rw [List.dropWhile_append_of_pos fun c hc => by simp [(hname c hc).1]]
  simp

end TwoWords

/-! ### mnemonics -/

theorem mnemonicLetters_unbroken (m : Mnemonic) : Unbroken (mnemonicLetters m) := by
  cases m <;> simp [Unbroken, mnemonicLetters]

theorem mnemonicLetters_ne_nil (m : Mnemonic) : mnemonicLetters m ≠ [] := by
  cases m <;> decide

theorem mnemonicLetters_ne_word (m : Mnemonic) : mnemonicLetters m ≠ ['.', 'w', 'o', 'r', 'd'] := by
  cases m <;> decide

/-- The ten mnemonics have ten different rows of letters, none in lower case. -/
theorem readMnemonic_mnemonicLetters (m : Mnemonic) : readMnemonic (mnemonicLetters m) = some m := by
  cases m <;> decide

/-- A mnemonic alone on a line is read as the command without an operand. -/
theorem readLine_mnemonicLetters (m : Mnemonic) : readLine (mnemonicLetters m) = .ok (.command m none) := by
  cases m <;> decide

/-- A mnemonic and an operand with one blank between them are read as the command with that operand. -/
theorem readLine_mnemonicLetters_operand (m : Mnemonic) {operand : List Char} {n : Nat} (hne : operand ≠ [])
    (hoperand : Unbroken operand) (hread : readOperand operand = some n) :
    readLine (mnemonicLetters m ++ ' ' :: operand) = .ok (.command m (some n)) := by
  have hname := mnemonicLetters_unbroken m
  simp only [readLine, takeWhile_comment_two_words hname hoperand,
    trimBlanks_two_words hname hoperand (mnemonicLetters_ne_nil m) hne, takeWhile_name_two_words hname,
    dropWhile_name_two_words hname, trimBlanks_blank_cons hne hoperand, mnemonicLetters_ne_nil,
    mnemonicLetters_ne_word, readMnemonic_mnemonicLetters, hne, hread, if_false]

/-! ### a byte written in hexadecimal -/

theorem hexDigit_digitChar : ∀ d < 16, hexDigit (Nat.digitChar d) = some d := by decide

theorem digitChar_unbroken :
    ∀ d < 16, (Nat.digitChar d).isWhitespace = false ∧ Nat.digitChar d ≠ ';' := by decide

/-- The two digits of a byte are below 16. -/
theorem byte_digits_lt (b : Byte) : b.toNat / 16 < 16 ∧ b.toNat % 16 < 16 := by
  have hb := b.isLt
  omega

theorem writeByte_ne_nil (b : Byte) : writeByte b ≠ [] := List.cons_ne_nil _ _

theorem writeByte_unbroken (b : Byte) : Unbroken (writeByte b) := by
  obtain ⟨hhi, hlo⟩ := byte_digits_lt b
  intro c hc
  obtain rfl | rfl | rfl | rfl : c = '0' ∨ c = 'x' ∨ c = Nat.digitChar (b.toNat / 16) ∨
      c = Nat.digitChar (b.toNat % 16) := by simpa [writeByte] using hc
  · decide
  · decide
  · exact digitChar_unbroken _ hhi
  · exact digitChar_unbroken _ hlo

/-- A written byte is read as its value: the two digits are those of base 16. -/
theorem readOperand_writeByte (b : Byte) : readOperand (writeByte b) = some b.toNat := by
  obtain ⟨hhi, hlo⟩ := byte_digits_lt b
  have hdigits : (0 * 16 + b.toNat / 16) * 16 + b.toNat % 16 = b.toNat := by omega
  simp only [readOperand, writeByte, readNumber, hexDigit_digitChar _ hhi, hexDigit_digitChar _ hlo, hdigits]

/-! ### the text of a command -/

/-- The text written for a command is read as its source line. -/
theorem readLine_writeLine (i : Instr) : readLine (writeLine i) = .ok i.source := by
  cases hb : i.dataByte with
  | none => simp [writeLine, Instr.source, hb, readLine_mnemonicLetters]
  | some b =>
    simp [writeLine, Instr.source, hb,
      readLine_mnemonicLetters_operand _ (writeByte_ne_nil b) (writeByte_unbroken b) (readOperand_writeByte b)]

theorem assembleLine_of_readLine {line : List Char} {src : SourceLine} (h : readLine line = .ok src) :
    assembleLine line = assembleSource src := by
  simp [assembleLine, h]

/-- Settles O49: the checks, the source line, and the text by way of the source line it is read as. -/
theorem assemblerEmitsEncoding : Obligations.AssemblerEmitsEncoding :=
  ⟨assembleSource_ok_iff, assembleSource_source,
    fun i => (assembleLine_of_readLine (readLine_writeLine i)).trans (assembleSource_source i)⟩

end Sys2Proof.Machine
end

section
/-! PROOFS. The permutation table of spec/40_cipher.md: a swap permutes the positions, the key schedule as the loop of
rule R80, and the law of rule R86 that every value stands in exactly one entry. -/

namespace Sys2Proof.Machine

/-! ### the permutation law (rule R86) -/

/-- The permutation law says that reading the table is a bijection of the bytes. -/
theorem tablePermutation_iff_bijective (S : Table) : TablePermutation S ↔ Function.Bijective (readTable S) :=
  (Function.bijective_iff_existsUnique _).symm

/-- A swap of two entries reads the table through the transposition of their positions. -/
theorem readTable_swapTable_eq_comp (S : Table) (a b : Byte) :
    readTable (swapTable S a b) = readTable S ∘ Equiv.swap a b := by
  funext n
  rw [readTable_swapTable, Function.comp_apply, Equiv.swap_apply_def]
  split_ifs <;> rfl

theorem TablePermutation.swapTable {S : Table} (h : TablePermutation S) (a b : Byte) :
    TablePermutation (swapTable S a b) := by
  rw [tablePermutation_iff_bijective] at h ⊢
  rw [readTable_swapTable_eq_comp]
  exact h.comp (Equiv.swap a b).bijective

theorem tablePermutation_identityTable : TablePermutation identityTable :=
  fun v => ⟨v, readTable_identityTable v, fun n hn => (readTable_identityTable n).symm.trans hn⟩

/-! ### the key schedule as a loop (rule R80) -/

/-- The table and the local j of the key schedule after its first `n` passes. -/
def ksaLoop (K : Key) : Nat → Table × Byte
  | 0 => (identityTable, 0x00#8)
  | i + 1 => ksaStep K (ksaLoop K i) (BitVec.ofNat 8 i)

/-- The first `n` positions of the fold are the first `n` passes of the loop. -/
theorem foldl_ksaStep_eq_ksaLoop (K : Key) (n : Nat) :
    ((List.range n).map (BitVec.ofNat 8)).foldl (ksaStep K) (identityTable, 0x00#8) = ksaLoop K n := by
  induction n with
  | zero => rfl
  | succ n ih => rw [List.range_succ, List.map_append, List.foldl_append, ih, ksaLoop, List.map_singleton,
      List.foldl_cons, List.foldl_nil]

theorem ksa_eq_ksaLoop (K : Key) : ksa K = (ksaLoop K 256).1 := by
  unfold ksa
  exact congrArg Prod.fst (foldl_ksaStep_eq_ksaLoop K 256)

/-- Cycling the key by position or by the position's byte is the same: 16 divides 256. -/
theorem keyByte_ofNat (K : Key) (i : Nat) (hi : i % 16 < 16) : keyByte K (BitVec.ofNat 8 i) = K[i % 16]'hi := by
  simp [keyByte]

/-- Settles O23: the sequences are those of `ksaLoop`. -/
theorem keyScheduleFollowsLoop : Obligations.KeyScheduleFollowsLoop := by
  intro K
  refine ⟨fun n => (ksaLoop K n).1, fun n => (ksaLoop K n).2, readTable_identityTable, rfl,
    fun i hi _ => ⟨?_, rfl⟩, ksa_eq_ksaLoop K⟩
  rw [← keyByte_ofNat K i hi]
  rfl

/-! ### the law along every run -/

/-- Each pass of the key schedule is a swap. -/
theorem tablePermutation_ksaLoop (K : Key) (n : Nat) : TablePermutation (ksaLoop K n).1 := by
  induction n with
  | zero => exact tablePermutation_identityTable
  | succ n ih => exact ih.swapTable _ _

theorem tablePermutation_ksa (K : Key) : TablePermutation (ksa K) := by
  rw [ksa_eq_ksaLoop]
  exact tablePermutation_ksaLoop K 256

/-- Settles O25: the reset table is the key schedule's. -/
theorem resetTableIsPermutation : Obligations.ResetTableIsPermutation :=
  ⟨fun c => tablePermutation_ksa c.KEY, tablePermutation_ksa Config.build.KEY⟩

/-- A keystream step swaps two entries and writes no other. -/
theorem TablePermutation.prgaStep {c : CipherRegs} (h : TablePermutation c.S) :
    TablePermutation (prgaStep c).1.S := by
  rw [prgaStep_S]
  exact h.swapTable _ _

/-- A command swaps two entries, or runs the key schedule, or leaves the table alone. -/
theorem State.Inv.after {s : State} (h : s.Inv) (i : Instr) : (after i s).Inv := by
  rw [State.Inv, ← cipherRegs_S, after_cipherRegs]
  split_ifs
  · exact TablePermutation.prgaStep h
  · exact tablePermutation_ksa s.cfg.KEY
  · exact h

/-- Settles O24: one case for each thing a step can do. -/
theorem stepKeepsPermutation : Obligations.StepKeepsPermutation := by
  intro s t h hstep
  obtain ⟨-, rfl⟩ | ⟨rest, -, rfl⟩ | ⟨cmd, rest, i, -, -, rfl⟩ | ⟨cmd, rest, -, -, rfl⟩ := step_cases hstep
  · exact h
  · exact tablePermutation_ksa s.cfg.KEY
  · have htaken : State.Inv { s with host := rest } := h
    exact htaken.after i
  · exact h

end Sys2Proof.Machine
end

section
/-! PROOFS. The two cipher commands of spec/40_cipher.md: CINIT (rule R84) and CXOR (rule R85), with their examples
for KEY_DEFAULT. -/

namespace Sys2Proof.Machine

/-! ### CINIT -/

/-- CINIT brings every state to keystream position 0. -/
theorem atPosition_after_cinit (s : State) : AtPosition (after .cinit s) 0 :=
  atPosition_zero (startCipher_cipherRegs s)

/-- Settles O12: the operation `startCipher`, which reads nothing that it writes, and the printed table. -/
theorem cinitStartsCipher : Obligations.CinitStartsCipher := by
  refine ⟨fun _ => decode_append_of_no_dataByte .cinit rfl rfl, fun s => exec_eq_after .cinit s,
    fun s t h => ?_, ?_⟩
  · obtain rfl := eq_after_of_exec h
    rw [exec_eq_after, after_after_of_writes_constants (by simp)]
  · rw [ksa_keyDefault]
    decide +kernel

/-! ### CXOR -/

/-- The keystream byte of a state at position `n` is `KS(KEY, n)` (rule R82). -/
theorem AtPosition.keystream_byte {s : State} {n : Nat} (h : AtPosition s n) :
    (prgaStep s.cipherRegs).2 = ks s.cfg.KEY n := by
  rw [h, ks]

/-- CXOR at position `n` uses `KS(KEY, n)` (rule R85). -/
theorem AtPosition.after_cxor_responses {s : State} {n : Nat} (h : AtPosition s n) (b : Byte) :
    (Machine.after (.cxor b) s).responses = s.responses ++ [zext16 (b ^^^ ks s.cfg.KEY n)] := by
  rw [after_responses, responseOf, h.keystream_byte, outputByte]

/-- The first keystream byte of KEY_DEFAULT (section 2.2 of spec/95_test_vectors.md), from the printed table. -/
theorem ks_keyDefault_zero : ks Config.keyDefault 0 = 0x6E#8 := by
  rw [ks, cipherAt, freshCipher, ksa_keyDefault]
  decide +kernel

/-- Settles O13: `after` of CXOR written out, its position, the wrap of I, and the example at position 0. -/
theorem cxorCiphersOneByte : Obligations.CxorCiphersOneByte := by
  refine ⟨fun b => decode_append_of_dataByte (.cxor b) rfl rfl, fun b s => exec_eq_after (.cxor b) s,
    fun b s t n h ht => ?_, fun b s t hI ht => ?_, fun s hK => ⟨_, execAll_eq_afterAll _ s, ?_⟩⟩
  · obtain rfl := eq_after_of_exec ht
    exact ⟨h.after_cxor_responses b, h.after (.cxor b)⟩
  · obtain rfl := eq_after_of_exec ht
    calc (after (.cxor b) s).I = s.I + 1 := prgaStep_I s.cipherRegs
      _ = 0x00#8 := by rw [hI]; rfl
  · calc (after (.cxor 0x48#8) (after .cinit s)).responses
        = s.responses ++ [zext16 (0x48#8 ^^^ ks s.cfg.KEY 0)] :=
          (atPosition_after_cinit s).after_cxor_responses 0x48#8
      _ = s.responses ++ [0x0026#16] := by rw [hK, ks_keyDefault_zero]; rfl

end Sys2Proof.Machine
end

section
/-! PROOFS. The cipher over a buffer (rules R83, R87 and R88 of spec/40_cipher.md): the transform byte by byte, the
keystream a row of CXOR meets, and CBUF, whose responses are the transform of its bytes. -/

namespace Sys2Proof.Machine

/-! ### the buffer transform -/

@[simp] theorem length_cipher (B : List Byte) (K : Key) : (cipher B K).length = B.length :=
  List.length_mapIdx

@[simp] theorem getElem_cipher (B : List Byte) (K : Key) (n : Nat) (h : n < (cipher B K).length) :
    (cipher B K)[n] = B[n]'(by simpa using h) ^^^ ks K n :=
  List.getElem_mapIdx

/-- Settles O37. -/
theorem bufferTransformByPosition : Obligations.BufferTransformByPosition := by
  refine fun B K => ⟨length_cipher B K, fun n h => ?_⟩
  rw [List.getElem?_eq_getElem (by simpa using h), getElem_cipher]

/-- The transform is its own inverse (rule R87): each byte meets the same keystream byte twice. -/
theorem cipher_cipher (B : List Byte) (K : Key) : cipher (cipher B K) K = B := by
  apply List.ext_getElem
  · simp
  · intro n _ _
    simp

/-! ### the keystream from any cipher registers -/

/-- The cipher registers after one keystream step. -/
def nextRegs (c : CipherRegs) : CipherRegs := (prgaStep c).1

/-- The next `n` keystream bytes from the cipher registers `c`. -/
def keystreamFrom (c : CipherRegs) : Nat → List Byte
  | 0 => []
  | n + 1 => (prgaStep c).2 :: keystreamFrom (nextRegs c) n

@[simp] theorem length_keystreamFrom (c : CipherRegs) (n : Nat) : (keystreamFrom c n).length = n := by
  induction n generalizing c with
  | zero => rfl
  | succ n ih => rw [keystreamFrom, List.length_cons, ih]

/-- From position `m` on, the keystream is `KS(K, m)`, `KS(K, m + 1)` and so on (rule R82). -/
theorem keystreamFrom_cipherAt (K : Key) (m n : Nat) :
    keystreamFrom (cipherAt K m) n = (List.range' m n).map (ks K) := by
  induction n generalizing m with
  | zero => rfl
  | succ n ih =>
    rw [List.range'_succ, List.map_cons, ← ih]
    rfl

/-- The transform is the XOR with the keystream from a fresh key schedule. -/
theorem cipher_eq_zipWith_keystreamFrom (B : List Byte) (K : Key) :
    cipher B K = List.zipWith (· ^^^ ·) B (keystreamFrom (freshCipher K) B.length) := by
  have hkeystream : keystreamFrom (freshCipher K) B.length = (List.range' 0 B.length).map (ks K) :=
    keystreamFrom_cipherAt K 0 B.length
  apply List.ext_getElem
  · simp
  · intro n _ _
    simp [hkeystream]

/-! ### a row of CXOR -/

/-- A row of CXOR responds with its bytes XORed with the keystream of the state it starts in. -/
theorem afterAll_cxor_responses (B : List Byte) (s : State) :
    (afterAll (B.map .cxor) s).responses = s.responses ++
      List.zipWith (fun b y => zext16 (b ^^^ y)) B (keystreamFrom s.cipherRegs B.length) := by
  induction B generalizing s with
  | nil => simp
  | cons b B ih =>
    have hregs : (after (.cxor b) s).cipherRegs = nextRegs s.cipherRegs := keystreamStep_cipherRegs s
    rw [List.map_cons, afterAll_cons, ih, hregs, after_responses, List.append_assoc]
    rfl

/-- A row of CXOR takes one keystream step for each byte, whatever the bytes are. -/
theorem afterAll_cxor_cipherRegs (B : List Byte) (s : State) :
    (afterAll (B.map .cxor) s).cipherRegs = nextRegs^[B.length] s.cipherRegs := by
  induction B generalizing s with
  | nil => rfl
  | cons b B ih =>
    have hregs : (after (.cxor b) s).cipherRegs = nextRegs s.cipherRegs := keystreamStep_cipherRegs s
    rw [List.map_cons, afterAll_cons, ih, hregs, List.length_cons, Function.iterate_succ_apply]

/-- Settles O40: the keystream and the registers left are functions of the buffer's length alone. -/
theorem keystreamIgnoresData : Obligations.KeystreamIgnoresData := by
  intro s B B' hlen
  refine ⟨_, _, keystreamFrom s.cipherRegs B.length, length_keystreamFrom _ _, execAll_eq_afterAll _ s,
    execAll_eq_afterAll _ s, afterAll_cxor_responses B s, ?_, ?_⟩
  · rw [hlen]
    exact afterAll_cxor_responses B' s
  · rw [← cipherRegs_eq_iff, afterAll_cxor_cipherRegs, afterAll_cxor_cipherRegs, hlen]

/-! ### CBUF -/

@[simp] theorem afterAll_cfg (l : List Instr) (s : State) : (afterAll l s).cfg = s.cfg := by
  induction l generalizing s with
  | nil => rfl
  | cons i l ih => rw [afterAll_cons, ih, after_cfg]

/-- CBUF responds with the transform of its bytes, from every state: CINIT makes the keystream the key's own. -/
theorem afterAll_cbuf_responses (B : List Byte) (s : State) :
    (afterAll (expand (.cbuf B)) s).responses = s.responses ++ (cipher B s.cfg.KEY).map zext16 := by
  calc (afterAll (B.map .cxor) (after .cinit s)).responses
      = s.responses ++
          List.zipWith (fun b y => zext16 (b ^^^ y)) B (keystreamFrom (freshCipher s.cfg.KEY) B.length) :=
        afterAll_cxor_responses B (startCipher s)
    _ = s.responses ++ (cipher B s.cfg.KEY).map zext16 := by
        rw [cipher_eq_zipWith_keystreamFrom, List.map_zipWith]

/-- Settles O39: the transform's involution, which the second CBUF meets with the same key. -/
theorem cipherIsItsOwnInverse : Obligations.CipherIsItsOwnInverse := by
  refine ⟨fun K B => cipher_cipher B K, fun s B => ⟨_, _, execAll_eq_afterAll _ s, afterAll_cbuf_responses B s,
    execAll_eq_afterAll _ _, ?_⟩⟩
  rw [afterAll_cbuf_responses, afterAll_cfg, cipher_cipher]

end Sys2Proof.Machine
end

section
/-! PROOFS. The CRC step of spec/41_crc.md as linear algebra (rules R100, R107 and R110): one shift is a shift and, by
the bit shifted out, the polynomial; that form is linear and can be undone, and it serves the bit-serial form too. -/

namespace Sys2Proof.Machine

/-! ### one shift -/

/-- What a shift with feedback bit `fb` XORs in: the polynomial or nothing. -/
def feedbackWord (fb : Bool) : Word := if fb then Config.crcPoly else 0#16

/-- One shift of the CRC value with feedback bit `fb`. The two forms of the step differ in where `fb` comes from. -/
def shiftWith (fb : Bool) (c : Word) : Word := (c <<< 1) ^^^ feedbackWord fb

theorem shiftWith_eq_ite (fb : Bool) (c : Word) :
    shiftWith fb c = if fb then (c <<< 1) ^^^ Config.crcPoly else c <<< 1 := by
  cases fb <;> simp [shiftWith, feedbackWord]

/-- In rule R100 the feedback is the top bit. -/
theorem crcShift_eq_shiftWith (c : Word) : crcShift c = shiftWith (c.getLsbD 15) c :=
  (shiftWith_eq_ite _ c).symm

/-- In rule R110 the feedback is the top bit XORed with the data bit. -/
theorem crcSerialBit_eq_shiftWith (b : Byte) (c : Word) (k : Nat) :
    crcSerialBit b c k = shiftWith (c.getLsbD 15 ^^ b.getLsbD k) c :=
  (shiftWith_eq_ite _ c).symm

theorem feedbackWord_xor (f g : Bool) : feedbackWord (f ^^ g) = feedbackWord f ^^^ feedbackWord g := by
  cases f <;> cases g <;> decide

theorem shiftWith_xor (f g : Bool) (c d : Word) :
    shiftWith (f ^^ g) (c ^^^ d) = shiftWith f c ^^^ shiftWith g d := by
  simp only [shiftWith, feedbackWord_xor, BitVec.shiftLeft_xor_distrib]
  ac_rfl

/-! ### the shift and the step are linear (rule R107) -/

theorem crcShift_xor (c d : Word) : crcShift (c ^^^ d) = crcShift c ^^^ crcShift d := by
  simp only [crcShift_eq_shiftWith, BitVec.getLsbD_xor, shiftWith_xor]

theorem crcShift_iterate_xor (n : Nat) (c d : Word) : crcShift^[n] (c ^^^ d) = crcShift^[n] c ^^^ crcShift^[n] d := by
  induction n generalizing c d with
  | zero => rfl
  | succ n ih => simp only [Function.iterate_succ_apply, crcShift_xor, ih]

theorem crcEnter_xor (c₁ c₂ : Word) (b₁ b₂ : Byte) :
    crcEnter (c₁ ^^^ c₂) (b₁ ^^^ b₂) = crcEnter c₁ b₁ ^^^ crcEnter c₂ b₂ := by
  have hbytes : (b₁ ++ 0x00#8) ^^^ (b₂ ++ 0x00#8) = (b₁ ^^^ b₂) ++ 0x00#8 := BitVec.xor_append
  rw [crcEnter, crcEnter, crcEnter, ← hbytes]
  ac_rfl

theorem crcStep_xor (c₁ c₂ : Word) (b₁ b₂ : Byte) :
    crcStep (c₁ ^^^ c₂) (b₁ ^^^ b₂) = crcStep c₁ b₁ ^^^ crcStep c₂ b₂ := by
  rw [crcStep, crcEnter_xor, crcShift_iterate_xor, crcStep, crcStep]

/-! ### the shift and the step lose nothing (rule R107) -/

/-- The polynomial's bit 0 is 1, so bit 0 after a shift tells which bit was shifted out. -/
theorem crcShift_getLsbD_zero (c : Word) : (crcShift c).getLsbD 0 = c.getLsbD 15 := by
  have hpoly (fb : Bool) : (feedbackWord fb).getLsbD 0 = fb := by cases fb <;> rfl
  rw [crcShift_eq_shiftWith, shiftWith, BitVec.getLsbD_xor, hpoly, BitVec.getLsbD_shiftLeft]
  simp

theorem crcShift_injective : Function.Injective crcShift := by
  intro c d h
  have htop : c.getLsbD 15 = d.getLsbD 15 := by
    rw [← crcShift_getLsbD_zero, ← crcShift_getLsbD_zero, h]
  have hshift : c <<< 1 = d <<< 1 := by
    rw [crcShift_eq_shiftWith, crcShift_eq_shiftWith, htop] at h
    exact (BitVec.xor_left_inj _).mp h
  ext k hk
  by_cases hk15 : k = 15
  · subst hk15
    exact htop
  · have hbit := congrArg (BitVec.getLsbD · (k + 1)) hshift
    simpa [show k + 1 < 16 by omega] using hbit

theorem crcEnter_injective (b : Byte) : Function.Injective (crcEnter · b) :=
  fun _ _ h => (BitVec.xor_left_inj _).mp h

theorem crcStep_injective (b : Byte) : Function.Injective (crcStep · b) :=
  (crcShift_injective.iterate 8).comp (crcEnter_injective b)

theorem crcStep_zero : crcStep 0x0000#16 0x00#8 = 0x0000#16 := by decide

/-- Settles O46. The third fact is the form of `crcStep`: the shifts see the entered value alone. -/
theorem crcStepIsLinearAndInjective : Obligations.CrcStepIsLinearAndInjective :=
  ⟨crcStep_xor, crcStep_zero, fun _ _ _ _ h => congrArg crcShift^[8] h, fun b _ _ h => crcStep_injective b h⟩

/-! ### the bit-serial form (rule R110) -/

/-- Shifting an entered byte shifts it in its byte: the bit that leaves it leaves the word. -/
theorem append_zero_shiftLeft_one (d : Byte) : (d ++ 0x00#8) <<< 1 = (d <<< 1) ++ 0x00#8 := by
  apply BitVec.eq_of_getLsbD_eq
  intro k hk
  simp only [BitVec.getLsbD_shiftLeft, BitVec.getLsbD_append]
  obtain hlow | rfl | hhigh := Nat.lt_trichotomy k 8
  · simp [hlow, show k - 1 < 8 by omega]
  · simp
  · grind

/-- A shift of a value with data bits still in it is a shift of the value without them, with the first of the data
bits in the feedback; the other data bits move up. -/
theorem crcShift_crcEnter (c : Word) (d : Byte) :
    crcShift (crcEnter c d) = crcEnter (crcSerialBit d c 7) (d <<< 1) := by
  have htop : (crcEnter c d).getLsbD 15 = (c.getLsbD 15 ^^ d.getLsbD 7) := by
    rw [crcEnter, BitVec.getLsbD_xor, BitVec.getLsbD_append]
    rfl
  calc crcShift (crcEnter c d)
      = shiftWith ((c.getLsbD 15 ^^ d.getLsbD 7) ^^ false) (crcEnter c d) := by
        rw [crcShift_eq_shiftWith, htop, Bool.xor_false]
    _ = shiftWith (c.getLsbD 15 ^^ d.getLsbD 7) c ^^^ shiftWith false (d ++ 0x00#8) := shiftWith_xor _ _ _ _
    _ = crcSerialBit d c 7 ^^^ ((d <<< 1) ++ 0x00#8) := by
        rw [crcSerialBit_eq_shiftWith, ← append_zero_shiftLeft_one]
        exact congrArg _ BitVec.xor_zero

/-- The serial form takes its data bits from the top of the byte down. -/
theorem crcSerialBit_shiftLeft (b : Byte) (c : Word) (n : Nat) (hn : n ≤ 7) :
    crcSerialBit (b <<< n) c 7 = crcSerialBit b c (7 - n) := by
  have hbit : (b <<< n).getLsbD 7 = b.getLsbD (7 - n) := by
    rw [BitVec.getLsbD_shiftLeft]
    simp [-BitVec.getLsbD_eq_getElem, Nat.not_lt.mpr hn]
  rw [crcSerialBit_eq_shiftWith, crcSerialBit_eq_shiftWith, hbit]

/-- After `n` shifts of rule R100 the value is that of `n` serial steps, with the data bits not yet used on top. -/
theorem crcShift_iterate_crcEnter (c : Word) (b : Byte) (n : Nat) (hn : n ≤ 8) :
    crcShift^[n] (crcEnter c b) =
      crcEnter (((List.range n).map (7 - ·)).foldl (crcSerialBit b) c) (b <<< n) := by
  induction n with
  | zero => simp
  | succ n ih =>
    rw [Function.iterate_succ_apply', ih (by omega), crcShift_crcEnter, crcSerialBit_shiftLeft b _ n (by omega),
      List.range_succ, List.map_append, List.foldl_append, ← BitVec.shiftLeft_add]
    rfl

/-- Settles O47: after 8 shifts no data bit is left. -/
theorem bitSerialCrcIsCrcStep : Obligations.BitSerialCrcIsCrcStep := by
  intro c b
  have hgone : b <<< 8 = 0x00#8 := BitVec.shiftLeft_eq_zero (by decide)
  have hunentered (v : Word) : crcEnter v 0x00#8 = v := BitVec.xor_zero
  calc crcSerial c b = crcEnter (crcSerial c b) (b <<< 8) := by rw [hgone, hunentered]
    _ = crcStep c b := (crcShift_iterate_crcEnter c b 8 le_rfl).symm

end Sys2Proof.Machine
end

section
/-! PROOFS. The checksum of a buffer (rule R101 of spec/41_crc.md) and the three checksum commands (rules R102 to
R104), with their examples: a row of CRCB folds its bytes, so CRCI, the row and CRCR respond the checksum. -/

namespace Sys2Proof.Machine

/-! ### the buffer checksum -/

/-- The checksum is the fold alone: the final XOR is with 0. -/
theorem crc16_eq_foldl (B : List Byte) : crc16 B = B.foldl crcStep 0xFFFF#16 := BitVec.xor_zero

/-- Settles O41. -/
theorem checksumFoldsFromInitialValue : Obligations.ChecksumFoldsFromInitialValue := by
  refine ⟨crc16_eq_foldl [], fun B b => ?_⟩
  rw [crc16_eq_foldl, crc16_eq_foldl, List.foldl_append, List.foldl_cons, List.foldl_nil]

/-! ### the commands in a row -/

/-- A row of CRCB folds its bytes into CRC and does nothing else. -/
theorem afterAll_crcb (B : List Byte) (s : State) :
    afterAll (B.map .crcb) s = { s with CRC := B.foldl crcStep s.CRC } := by
  induction B generalizing s with
  | nil => rfl
  | cons b B ih =>
    rw [List.map_cons, afterAll_cons, ih, after_crcb]
    rfl

/-- CRCBUF leaves the checksum in CRC and responds it, from every state (rule R106). -/
theorem afterAll_crcbuf (B : List Byte) (s : State) :
    afterAll (expand (.crcbuf B)) s = { s with CRC := crc16 B, responses := s.responses ++ [crc16 B] } := by
  rw [expand, afterAll_append, afterAll_cons .crci, afterAll_crcb, crc16_eq_foldl]
  rfl

/-- Settles O14: the example is CRCBUF of the empty buffer. -/
theorem crciSetsInitialValue : Obligations.CrciSetsInitialValue := by
  refine ⟨fun _ => decode_append_of_no_dataByte .crci rfl rfl, exec_eq_after .crci, fun s => ?_⟩
  rw [execAll_eq_afterAll]
  exact congrArg _ (afterAll_crcbuf [] s)

theorem crcStep_init_zero : crcStep 0xFFFF#16 0x00#8 = 0xE1F0#16 := by decide

/-- The CRC value after the byte '1' alone. -/
theorem crcStep_init_31 : crcStep 0xFFFF#16 0x31#8 = 0xC782#16 := by decide

/-- Settles O15. -/
theorem crcbFoldsOneByte : Obligations.CrcbFoldsOneByte := by
  refine ⟨fun b => decode_append_of_dataByte (.crcb b) rfl rfl, fun b => exec_eq_after (.crcb b), crcStep_zero,
    crcStep_init_zero, fun s => ?_⟩
  rw [execAll_eq_afterAll, ← crcStep_init_31]
  rfl

/-- The published check value of CRC-16/CCITT-FALSE: the checksum of the text "123456789". -/
theorem crc16_check_value :
    crc16 [0x31#8, 0x32#8, 0x33#8, 0x34#8, 0x35#8, 0x36#8, 0x37#8, 0x38#8, 0x39#8] = 0x29B1#16 := by
  decide +kernel

/-- Settles O16: CRCR responds what it finds in CRC, and the example is CRCBUF of the check text. -/
theorem crcrRespondsCrc : Obligations.CrcrRespondsCrc := by
  refine ⟨fun _ => decode_append_of_no_dataByte .crcr rfl rfl, exec_eq_after .crcr, fun _ => rfl, rfl, fun s => ?_⟩
  rw [execAll_eq_afterAll, afterAll_crcbuf, crc16_check_value]

end Sys2Proof.Machine
end

section
/-! PROOFS. What a row of commands keeps, from what each of its commands keeps (rule R26). -/

namespace Sys2Proof.Machine

/-- What each command of a row keeps, the row keeps. -/
theorem afterAll_keeps {α : Type} (f : State → α) {l : List Instr} (h : ∀ i ∈ l, ∀ s, f (after i s) = f s)
    (s : State) : f (afterAll l s) = f s := by
  induction l generalizing s with
  | nil => rfl
  | cons i l ih =>
    obtain ⟨hi, hl⟩ := List.forall_mem_cons.mp h
    rw [afterAll_cons, ih hl, hi]

@[simp] theorem afterAll_host (l : List Instr) (s : State) : (afterAll l s).host = s.host :=
  afterAll_keeps State.host (fun i _ => after_host i) s

theorem afterAll_CRC_of_not_writesCrc {l : List Instr} (h : ∀ i ∈ l, i.writesCrc = false) (s : State) :
    (afterAll l s).CRC = s.CRC :=
  afterAll_keeps State.CRC (fun i hi => after_CRC_of_not_writesCrc (h i hi)) s

theorem afterAll_ILL_of_not_writesIll {l : List Instr} (h : ∀ i ∈ l, i.writesIll = false) (s : State) :
    (afterAll l s).ILL = s.ILL :=
  afterAll_keeps State.ILL (fun i hi => after_ILL_of_not_writesIll (h i hi)) s

end Sys2Proof.Machine
end

section
/-! PROOFS. The combined command CXC of spec/42_pipeline.md (rules R120 and R121) and a row of them: CXC is CXOR and
then CRCB of its output byte, so a row of CXC is a row of CXOR and then a row of CRCB. -/

namespace Sys2Proof.Machine

/-! ### one CXC -/

/-- CXC is CXOR and then CRCB of the output byte (rule R121). -/
theorem after_cxc_eq_after_crcb_after_cxor (b : Byte) (s : State) :
    after (.cxc b) s = after (.crcb (outputByte b (prgaStep s.cipherRegs).2)) (after (.cxor b) s) := rfl

/-- Settles O44. -/
theorem cxcIsCxorThenCrcb : Obligations.CxcIsCxorThenCrcb := by
  intro s b
  refine ⟨_, outputByte b (prgaStep s.cipherRegs).2, exec_eq_after _ s, after_responses _ s, _, exec_eq_after _ _,
    ?_⟩
  rw [exec_eq_after, after_cxc_eq_after_crcb_after_cxor]

/-! ### a row of CXC -/

/-- The output bytes of a row of data commands from the cipher registers `c`. -/
def outputsFrom (c : CipherRegs) (B : List Byte) : List Byte :=
  List.zipWith outputByte B (keystreamFrom c B.length)

@[simp] theorem outputsFrom_cons (c : CipherRegs) (b : Byte) (B : List Byte) :
    outputsFrom c (b :: B) = outputByte b (prgaStep c).2 :: outputsFrom (nextRegs c) B := rfl

/-- From a fresh key schedule the output bytes are the buffer transform (rule R83). -/
theorem outputsFrom_freshCipher (K : Key) (B : List Byte) : outputsFrom (freshCipher K) B = cipher B K :=
  (cipher_eq_zipWith_keystreamFrom B K).symm

/-- CXOR neither reads nor writes CRC (rule R26), so what stands there is carried through a row of them. -/
theorem afterAll_cxor_with_CRC (B : List Byte) (s : State) (v : Word) :
    afterAll (B.map .cxor) { s with CRC := v } = { afterAll (B.map .cxor) s with CRC := v } := by
  induction B generalizing s with
  | nil => rfl
  | cons b B ih =>
    rw [List.map_cons, afterAll_cons, afterAll_cons, ← ih]
    rfl

theorem afterAll_cxor_CRC (B : List Byte) (s : State) : (afterAll (B.map .cxor) s).CRC = s.CRC :=
  afterAll_CRC_of_not_writesCrc (by simp [Instr.writesCrc]) s

/-- A row of CXC is the row of CXOR and then a row of CRCB over the output bytes: CXOR leaves CRC alone, so every fold
may wait until the last byte is ciphered. -/
theorem afterAll_cxc (B : List Byte) (s : State) :
    afterAll (B.map .cxc) s =
      afterAll ((outputsFrom s.cipherRegs B).map .crcb) (afterAll (B.map .cxor) s) := by
  induction B generalizing s with
  | nil => rfl
  | cons b B ih =>
    have hregs : (after (.cxc b) s).cipherRegs = nextRegs s.cipherRegs := keystreamStep_cipherRegs s
    have hwait (o : Byte) (t : State) :
        afterAll (B.map .cxor) (after (.crcb o) t) = after (.crcb o) (afterAll (B.map .cxor) t) := by
      rw [after_crcb, after_crcb, foldCrc, foldCrc, afterAll_cxor_with_CRC, afterAll_cxor_CRC]
    rw [List.map_cons, afterAll_cons, ih, hregs, after_cxc_eq_after_crcb_after_cxor, hwait, outputsFrom_cons,
      List.map_cons, List.map_cons, afterAll_cons, afterAll_cons]

/-- From position 0 and the CRC's initial value, a row of CXC responds the transform of its bytes and leaves the
transform's checksum in CRC. -/
theorem afterAll_cxc_of_fresh {s : State} (hpos : AtPosition s 0) (hcrc : s.CRC = 0xFFFF#16) (B : List Byte) :
    (afterAll (B.map .cxc) s).responses = s.responses ++ (cipher B s.cfg.KEY).map zext16 ∧
      (afterAll (B.map .cxc) s).CRC = crc16 (cipher B s.cfg.KEY) := by
  have hfresh : s.cipherRegs = freshCipher s.cfg.KEY := hpos
  rw [afterAll_cxc, afterAll_crcb, hfresh, outputsFrom_freshCipher, afterAll_cxor_CRC, hcrc, crc16_eq_foldl,
    afterAll_cxor_responses, hfresh, cipher_eq_zipWith_keystreamFrom, List.map_zipWith]
  exact ⟨rfl, rfl⟩

/-! ### the examples for KEY_DEFAULT -/

/-- RST and then a row of CXC, as the row from the reset values of the registers. -/
theorem afterAll_rst_cxc (B : List Byte) (s : State) :
    (afterAll (.rst :: B.map .cxc) s).responses = s.responses ++ (cipher B s.cfg.KEY).map zext16 ∧
      (afterAll (.rst :: B.map .cxc) s).CRC = crc16 (cipher B s.cfg.KEY) :=
  afterAll_cxc_of_fresh (s := after .rst s) (atPosition_zero rfl) rfl B

theorem cipher_keyDefault_zero : cipher [0x00#8] Config.keyDefault = [0x6E#8] := by
  rw [cipher, List.mapIdx_cons, List.mapIdx_nil, ks_keyDefault_zero]
  rfl

/-- The first four keystream bytes of KEY_DEFAULT (section 2.2 of spec/95_test_vectors.md), from the printed table. -/
theorem cipher_keyDefault_four_zeros :
    cipher [0x00#8, 0x00#8, 0x00#8, 0x00#8] Config.keyDefault = [0x6E#8, 0x26#8, 0x2C#8, 0xF3#8] := by
  rw [← outputsFrom_freshCipher, freshCipher, ksa_keyDefault]
  decide +kernel

/-- The checksum of those four bytes. -/
theorem crc16_keyDefault_four_bytes : crc16 [0x6E#8, 0x26#8, 0x2C#8, 0xF3#8] = 0xD7D9#16 := by
  decide +kernel

/-- Settles O17: `after` of CXC written out, and the examples as the transform of zero bytes. -/
theorem cxcCiphersAndFoldsOutput : Obligations.CxcCiphersAndFoldsOutput := by
  refine ⟨fun b => decode_append_of_dataByte (.cxc b) rfl rfl, fun b s => exec_eq_after (.cxc b) s,
    fun s hK => ⟨_, execAll_eq_afterAll _ s, ?_⟩, fun s hK => ⟨_, execAll_eq_afterAll _ s, ?_⟩⟩
  · have hrow := afterAll_rst_cxc [0x00#8] s
    rw [hK, cipher_keyDefault_zero, crc16_eq_foldl] at hrow
    exact hrow
  · have hrow := afterAll_rst_cxc [0x00#8, 0x00#8, 0x00#8, 0x00#8] s
    rw [hK, cipher_keyDefault_four_zeros, crc16_keyDefault_four_bytes] at hrow
    exact hrow

end Sys2Proof.Machine
end

section
/-! PROOFS. The buffer procedures of spec/42_pipeline.md (rules R124 to R126 and R128): CBUF, CRCBUF and CXCBUF from
every state, the upload stream, and the padding that stands before it. -/

namespace Sys2Proof.Machine

/-! ### CBUF -/

/-- CBUF writes neither CRC nor ILL: no CINIT and no CXOR does (rule R26). -/
theorem cbuf_writes_cipher_only (B : List Byte) :
    ∀ i ∈ expand (.cbuf B), i.writesCrc = false ∧ i.writesIll = false := by
  simp [expand, Instr.writesCrc, Instr.writesIll]

/-- A row of CXOR moves the position on by its length (rule R90). -/
theorem AtPosition.afterAll_cxor {s : State} {n : Nat} (h : AtPosition s n) (B : List Byte) :
    AtPosition (afterAll (B.map .cxor) s) (n + B.length) := by
  induction B generalizing s n with
  | nil => exact h
  | cons b B ih =>
    rw [List.map_cons, afterAll_cons, List.length_cons, Nat.add_comm B.length, ← Nat.add_assoc]
    exact ih (h.after (.cxor b))

/-- CBUF ends at the position of its length: CINIT starts it at 0. -/
theorem atPosition_afterAll_cbuf (B : List Byte) (s : State) :
    AtPosition (afterAll (expand (.cbuf B)) s) B.length := by
  have hrow := (atPosition_after_cinit s).afterAll_cxor B
  rwa [Nat.zero_add] at hrow

/-- Settles O38: the responses, the position, and the registers no command of CBUF writes. -/
theorem cbufCiphersBuffer : Obligations.CbufCiphersBuffer := fun s B =>
  have hkeeps := cbuf_writes_cipher_only B
  ⟨_, execAll_eq_afterAll _ s, afterAll_cbuf_responses B s, atPosition_afterAll_cbuf B s,
    afterAll_CRC_of_not_writesCrc (fun i hi => (hkeeps i hi).1) s,
    afterAll_ILL_of_not_writesIll (fun i hi => (hkeeps i hi).2) s, afterAll_cfg _ s, afterAll_host _ s⟩

/-! ### CRCBUF -/

/-- Settles O42. -/
theorem crcbufComputesChecksum : Obligations.CrcbufComputesChecksum := fun s B => by
  rw [execAll_eq_afterAll, afterAll_crcbuf]

/-! ### CXCBUF and the upload stream -/

/-- After CINIT and CRCI a row of CXC and CRCR respond the transform of its bytes and then the transform's checksum. -/
theorem afterAll_cxcbuf_responses (Q : List Byte) (s : State) :
    (afterAll (expand (.cxcbuf Q)) s).responses =
      s.responses ++ (cipher Q s.cfg.KEY).map zext16 ++ [crc16 (cipher Q s.cfg.KEY)] := by
  obtain ⟨hresponses, hcrc⟩ :=
    afterAll_cxc_of_fresh (s := startCrc (startCipher s)) (atPosition_zero rfl) rfl Q
  calc (afterAll (Q.map .cxc ++ [.crcr]) (startCrc (startCipher s))).responses
      = (afterAll (Q.map .cxc) (startCrc (startCipher s))).responses ++
          [(afterAll (Q.map .cxc) (startCrc (startCipher s))).CRC] := by
        rw [afterAll_append, afterAll_cons, afterAll_nil, after_crcr, respond_responses]
    _ = s.responses ++ (cipher Q s.cfg.KEY).map zext16 ++ [crc16 (cipher Q s.cfg.KEY)] := by
        rw [hresponses, hcrc]
        rfl

/-- CINIT and CRCI write different registers, and neither reads what the other writes. -/
theorem after_cinit_after_crci (s : State) : after .cinit (after .crci s) = after .crci (after .cinit s) := rfl

/-- CINIT and CRCI may be issued in either order before any other commands (rule R126). -/
theorem afterAll_crci_cinit (l : List Instr) (s : State) :
    afterAll (.crci :: .cinit :: l) s = afterAll (.cinit :: .crci :: l) s :=
  congrArg (afterAll l) (after_cinit_after_crci s)

/-- The low byte of a response word gives back the byte that was zero-extended (rule R70). -/
theorem responseByte_zext16 (v : Byte) : responseByte (zext16 v) = v := by
  rw [zext16_eq_append]
  exact Laws.operandOf_commandWord 0x00#8 v

/-- Settles O43: the responses, the two orders, and the stream as the responses' low bytes. -/
theorem cxcbufComputesUpload : Obligations.CxcbufComputesUpload := by
  intro s Q
  refine ⟨_, execAll_eq_afterAll _ s, afterAll_cxcbuf_responses Q s, ?_, ?_, rfl⟩
  · rw [execAll_eq_afterAll]
    exact congrArg _ (afterAll_crci_cinit (Q.map Instr.cxc ++ [Instr.crcr]) s)
  · have hbytes : responseByte ∘ zext16 = id := funext responseByte_zext16
    rw [uploadStream, List.map_map, hbytes, List.map_id]

/-! ### padding -/

/-- Rounding a length up to a multiple of `C` adds less than `C` to it. -/
theorem roundUp_bounds (L : Nat) {C : Nat} (hC : 0 < C) :
    L ≤ (L + C - 1) / C * C ∧ (L + C - 1) / C * C < L + C := by
  have hlow : (L + C - 1) / C * C ≤ L + C - 1 := Nat.div_mul_le_self _ _
  have hhigh : L + C - 1 < (L + C - 1) / C * C + C := Nat.lt_div_mul_add hC
  omega

theorem length_padTo (B : List Byte) {C : Nat} (hC : 0 < C) :
    (padTo C B).length = (B.length + C - 1) / C * C := by
  rw [padTo, List.length_append, List.length_replicate, Nat.add_sub_cancel' (roundUp_bounds B.length hC).1]

theorem padTo_chunkSize_nil : padTo chunkSize [] = [] := rfl

/-- The stream of an empty payload is the trailer of the CRC's initial value. -/
theorem uploadStream_nil (K : Key) : uploadStream K [] = [0xFF#8, 0xFF#8] := by
  rw [uploadStream, cipher, List.mapIdx_nil, crc16_eq_foldl]
  rfl

/-- Settles O52: the padding is what rounds the length up, and the empty payload needs none. -/
theorem paddingReachesChunkMultiple : Obligations.PaddingReachesChunkMultiple := by
  refine ⟨fun C B hC => ⟨_, rfl, ?_, ?_⟩, fun K => ⟨padTo_chunkSize_nil, ?_⟩⟩
  · obtain ⟨hlow, hhigh⟩ := roundUp_bounds B.length hC
    omega
  · rw [length_padTo B hC, Nat.mul_mod_left]
  · rw [padTo_chunkSize_nil, uploadStream_nil]

end Sys2Proof.Machine
end

section
/-! PROOFS. Commands in the middle of a procedure (rule R123 of spec/42_pipeline.md): a harmless command or an
unassigned word may change ILL and adds to the responses, and no command but STAT reads either. -/

namespace Sys2Proof.Machine

/-! ### the responses of a row of commands -/

/-- The response words of a row of commands from `s`. -/
def responsesOf : List Instr → State → List Word
  | [], _ => []
  | i :: l, s => responseOf i s ++ responsesOf l (after i s)

theorem afterAll_responses (l : List Instr) (s : State) :
    (afterAll l s).responses = s.responses ++ responsesOf l s := by
  induction l generalizing s with
  | nil => exact (List.append_nil _).symm
  | cons i l ih => rw [afterAll_cons, ih, after_responses, List.append_assoc, responsesOf]

/-! ### states that agree on all but ILL and the ports -/

/-- Two states of blocks with one key, with the same table, indices and CRC. -/
structure AgreeOnData (v w : State) : Prop where
  cfg : v.cfg = w.cfg
  cipher : v.cipherRegs = w.cipherRegs
  crc : v.CRC = w.CRC

/-- STAT is the one command that reads STATUS (rule R26). -/
theorem readsStatus_eq_true_iff (i : Instr) : i.readsStatus = true ↔ i = .stat := by
  cases i <;> simp [Instr.readsStatus]

theorem AgreeOnData.agreeOnReads {v w : State} (h : AgreeOnData v w) {i : Instr} (hi : i ≠ .stat) :
    AgreeOnReads i v w :=
  ⟨h.cfg, fun _ => h.cipher, fun _ => h.crc, fun hr => absurd ((readsStatus_eq_true_iff i).mp hr) hi⟩

/-- What a command writes it writes alike in both states, and what it does not write agreed before. -/
theorem AgreeOnData.after {v w : State} (h : AgreeOnData v w) {i : Instr} (hi : i ≠ .stat) :
    AgreeOnData (after i v) (after i w) where
  cfg := by rw [after_cfg, after_cfg, h.cfg]
  cipher := by
    cases hw : i.writesCipher with
    | true => exact (h.agreeOnReads hi).after_cipherRegs_eq hw
    | false =>
      rw [after_cipherRegs_of_not_writesCipher hw, after_cipherRegs_of_not_writesCipher hw, h.cipher]
  crc := by
    cases hw : i.writesCrc with
    | true => exact (h.agreeOnReads hi).after_CRC_eq hw
    | false => rw [after_CRC_of_not_writesCrc hw, after_CRC_of_not_writesCrc hw, h.crc]

theorem AgreeOnData.afterAll {v w : State} (h : AgreeOnData v w) {l : List Instr} (hl : .stat ∉ l) :
    AgreeOnData (afterAll l v) (afterAll l w) := by
  induction l generalizing v w with
  | nil => exact h
  | cons i l ih =>
    obtain ⟨hi, hl⟩ := not_or.mp (mt List.mem_cons.mpr hl)
    exact ih (h.after (Ne.symm hi)) hl

theorem AgreeOnData.responsesOf_eq {v w : State} (h : AgreeOnData v w) {l : List Instr} (hl : .stat ∉ l) :
    responsesOf l v = responsesOf l w := by
  induction l generalizing v w with
  | nil => rfl
  | cons i l ih =>
    obtain ⟨hi, hl⟩ := not_or.mp (mt List.mem_cons.mpr hl)
    rw [responsesOf, responsesOf, (h.agreeOnReads (Ne.symm hi)).responseOf_eq, ih (h.after (Ne.symm hi)) hl]

/-! ### harmless commands -/

/-- A harmless command writes neither the cipher registers nor CRC (rule R123). -/
theorem harmless_writes_no_data {i : Instr} (h : i.harmless = true) :
    i.writesCipher = false ∧ i.writesCrc = false := by
  cases i with
  | nop | crcr | stat | sclr => exact ⟨rfl, rfl⟩
  | cinit | cxor | crci | crcb | cxc | rst => cases h

theorem agreeOnData_after_of_harmless {i : Instr} (h : i.harmless = true) (s : State) :
    AgreeOnData s (after i s) := by
  obtain ⟨hcipher, hcrc⟩ := harmless_writes_no_data h
  exact ⟨(after_cfg i s).symm, (after_cipherRegs_of_not_writesCipher hcipher s).symm,
    (after_CRC_of_not_writesCrc hcrc s).symm⟩

theorem agreeOnData_setIll (s : State) : AgreeOnData s (setIll s) := ⟨rfl, rfl, rfl⟩

/-- Settles O45: what is put in between leaves a state that agrees on the data, and a row without STAT keeps the
agreement and responds alike. -/
theorem harmlessCommandsMayInterleave : Obligations.HarmlessCommandsMayInterleave := by
  intro v w u l hbetween hstat hu
  have h : AgreeOnData v w := by
    obtain ⟨i, hi, hw⟩ | ⟨op, hw⟩ := hbetween
    · obtain rfl := eq_after_of_exec hw
      exact agreeOnData_after_of_harmless hi v
    · obtain rfl := Host.Outcome.next.inj hw
      exact agreeOnData_setIll v
  rw [execAll_eq_afterAll] at hu
  obtain rfl := Host.Outcome.next.inj hu
  have hend := h.afterAll hstat
  refine ⟨_, responsesOf l v, execAll_eq_afterAll l w, hend.cipher.symm, hend.crc.symm, afterAll_responses l v, ?_⟩
  rw [afterAll_responses, h.responsesOf_eq hstat]

end Sys2Proof.Machine
end

section
/-! PROOFS. The host's moves one after the other (rules R192 and R193): a run makes each of them, in order. -/

namespace Sys2Proof.Machine

/-- The state a row of the host's moves leads to. -/
def afterMoves (moves : List HostMove) (s : State) : State := moves.foldl (fun t m => afterMove m t) s

@[simp] theorem afterMoves_nil (s : State) : afterMoves [] s = s := rfl

@[simp] theorem afterMoves_cons (m : HostMove) (moves : List HostMove) (s : State) :
    afterMoves (m :: moves) s = afterMoves moves (afterMove m s) := rfl

theorem run_succ_of_step {s t : State} (h : step s = .next t) (k : Nat) : core.run (k + 1) s = core.run k t := by
  have hcore : core.step s = .next t := h
  simp only [Host.Core.run, hcore]

/-- As many steps as the host has moves make all of them and leave none. -/
theorem run_moves (moves : List HostMove) (s : State) :
    core.run moves.length { s with host := moves } = .next { afterMoves moves s with host := [] } := by
  induction moves generalizing s with
  | nil => rfl
  | cons m moves ih =>
    calc core.run (moves.length + 1) { s with host := m :: moves }
        = core.run moves.length (afterMove m { s with host := moves }) :=
          run_succ_of_step (step_of_host_cons rfl) _
      _ = core.run moves.length { afterMove m s with host := moves } := by rw [afterMove_with_host]
      _ = .next { afterMoves (m :: moves) s with host := [] } := ih (afterMove m s)

end Sys2Proof.Machine
end

section
/-! PROOFS. ILL (rules R145 to R147 of spec/43_control.md): what sets it, what clears it, and that no command but STAT
depends on it. -/

namespace Sys2Proof.Machine

/-! ### unassigned words -/

/-- A word that decodes to no command has an opcode from 0x09 to 0xFE (rules R64 and R66). -/
theorem opcodeOf_unassigned_of_decode_error {w : Word} {e : DecodeError} (h : decode w = .error e) :
    0x09#8 ≤ opcodeOf w ∧ opcodeOf w ≤ 0xFE#8 := by
  unfold decode at h
  split at h <;> cases h
  simp only [imp_false, BitVec.le_def, BitVec.toNat_ofNat] at *
  omega

/-- The unassigned word of the spec's examples. -/
theorem decode_4200 : decode 0x4200#16 = .error (.unassigned 0x42#8) :=
  decode_append_of_unassigned (op := 0x42#8) (b := 0x00#8) (by decide) (by decide)

/-! ### ILL after a command -/

theorem writesIll_eq_true_iff (i : Instr) : i.writesIll = true ↔ i = .sclr ∨ i = .rst := by
  cases i <;> simp [Instr.writesIll]

/-- A command clears ILL or leaves it alone (rule R146). -/
theorem after_ILL (i : Instr) (s : State) :
    (after i s).ILL = if i = .sclr ∨ i = .rst then false else s.ILL := by
  split_ifs with hi
  · exact after_ILL_of_writesIll ((writesIll_eq_true_iff i).mpr hi) s
  · exact after_ILL_of_not_writesIll (Bool.eq_false_iff.mpr (mt (writesIll_eq_true_iff i).mp hi)) s

/-- Settles O9: the step on an undecodable word, for the whole range and for the example; between the two, the
commands that leave ILL alone. -/
theorem unassignedOpcodeSetsIll : Obligations.UnassignedOpcodeSetsIll := by
  refine ⟨fun s op x rest hlo hhi => ?_, fun i s t hs hsclr hrst h => ?_, fun s rest => ?_⟩
  · exact step_command_of_decode_error (decode_append_of_unassigned hlo hhi) s rest
  · obtain rfl := eq_after_of_exec h
    rw [after_ILL, if_neg (not_or.mpr ⟨hsclr, hrst⟩), hs]
  · exact step_command_of_decode_error decode_4200 s rest

/-- Of the moves that find ILL at 0, only an undecodable word leaves it at 1. -/
theorem decode_error_of_afterMove_sets_ILL {m : HostMove} {s : State} (hs : s.ILL = false)
    (h : (afterMove m s).ILL = true) : ∃ cmd e, m = .command cmd ∧ decode cmd = .error e := by
  cases m with
  | reset => cases h
  | command cmd =>
    obtain ⟨i, hd⟩ | hd := decode_cases cmd
    · rw [afterMove_of_decode_ok hd, after_ILL, hs, ite_self] at h
      cases h
    · exact ⟨cmd, _, rfl, hd⟩

/-- Settles O32: ILL after a command, and the word that alone can set it, by its two fields. -/
theorem assignedCommandsNeverSetIll : Obligations.AssignedCommandsNeverSetIll := by
  refine ⟨fun i s t h => ?_, fun s t m rest hs h ht => ?_⟩
  · obtain rfl := eq_after_of_exec h
    exact after_ILL i s
  · rw [step_of_host_cons rfl] at h
    obtain rfl := Host.Outcome.next.inj h
    obtain ⟨cmd, e, rfl, hd⟩ := decode_error_of_afterMove_sets_ILL (s := { s with host := rest }) hs ht
    obtain ⟨hlo, hhi⟩ := opcodeOf_unassigned_of_decode_error hd
    exact ⟨opcodeOf cmd, operandOf cmd, hlo, hhi, congrArg HostMove.command (commandWord_fields cmd).symm⟩

/-! ### what depends on ILL -/

/-- A command other than STAT carries a changed ILL along, or writes its own, and does all else the same. -/
theorem after_with_ILL {i : Instr} (hi : i ≠ .stat) (s : State) (ill : Bool) :
    after i { s with ILL := ill } = { after i s with ILL := if i.writesIll then (after i s).ILL else ill } := by
  cases i with
  | stat => exact absurd rfl hi
  | sclr | rst => rfl
  | nop | cinit | cxor | crci | crcb | cxc | crcr => rfl

/-- Settles O33. -/
theorem noCommandDependsOnIll : Obligations.NoCommandDependsOnIll := by
  refine ⟨fun i s t ill hi h => ?_, fun s ill => ⟨_, exec_eq_after .stat _⟩⟩
  obtain rfl := eq_after_of_exec h
  rw [exec_eq_after, after_with_ILL hi]

end Sys2Proof.Machine
end

section
/-! PROOFS. The control commands of spec/43_control.md: NOP (rule R140), STAT (rule R141), SCLR (rule R142) and RST
(rules R143 and R144), with their examples. -/

namespace Sys2Proof.Machine

/-! ### NOP, STAT and SCLR -/

theorem decode_0700 : decode 0x0700#16 = .ok .stat := decode_encode .stat

theorem decode_0800 : decode 0x0800#16 = .ok .sclr := decode_encode .sclr

/-- Settles O11. -/
theorem nopKeepsState : Obligations.NopKeepsState :=
  ⟨fun _ => decode_append_of_no_dataByte .nop rfl rfl, exec_eq_after .nop⟩

/-- STATUS as a response word: ILL in bit 0, and 0 in every reserved bit (rules R25 and R70). -/
theorem zext16_readStatus (s : State) : zext16 (readStatus s) = if s.ILL then 0x0001#16 else 0x0000#16 := by
  unfold readStatus
  cases s.ILL <;> rfl

theorem exec_stat (s : State) :
    exec .stat s = .next { s with responses := s.responses ++ [if s.ILL then 0x0001#16 else 0x0000#16] } := by
  rw [exec_eq_after, after_stat, zext16_readStatus]
  rfl

/-- Settles O18: in the example, STAT reads the ILL that the unassigned word has set. -/
theorem statRespondsStatus : Obligations.StatRespondsStatus := by
  refine ⟨fun _ => decode_append_of_no_dataByte .stat rfl rfl, exec_stat, zext16_readStatus,
    fun c => exec_stat (State.resetOf c), fun s => ?_⟩
  have hmoves : afterMoves [.command 0x4200#16, .command 0x0700#16] s = after .stat (setIll s) := by
    rw [afterMoves_cons, afterMove_of_decode_error decode_4200, afterMoves_cons,
      afterMove_of_decode_ok decode_0700, afterMoves_nil]
  refine (run_moves [.command 0x4200#16, .command 0x0700#16] s).trans ?_
  rw [hmoves]
  rfl

/-- Settles O19: in the example, SCLR has cleared what the unassigned word set before STAT reads it. -/
theorem sclrClearsIllOnly : Obligations.SclrClearsIllOnly := by
  refine ⟨fun _ => decode_append_of_no_dataByte .sclr rfl rfl, exec_eq_after .sclr, fun s => ?_⟩
  have hmoves : afterMoves [.command 0x4200#16, .command 0x0800#16, .command 0x0700#16] s =
      after .stat (after .sclr (setIll s)) := by
    rw [afterMoves_cons, afterMove_of_decode_error decode_4200, afterMoves_cons,
      afterMove_of_decode_ok decode_0800, afterMoves_cons, afterMove_of_decode_ok decode_0700, afterMoves_nil]
  refine (run_moves [.command 0x4200#16, .command 0x0800#16, .command 0x0700#16] s).trans ?_
  rw [hmoves]
  rfl

/-! ### RST -/

/-- RST writes every register with its reset value, as the reset input does (rule R144). -/
theorem after_rst_eq_hardwareReset (s : State) : after .rst s = hardwareReset s := rfl

theorem atPosition_after_rst (s : State) : AtPosition (after .rst s) 0 :=
  atPosition_zero (hardwareReset_cipherRegs s)

/-- Settles O21: both steps do what `hardwareReset` does. -/
theorem softAndHardwareResetAgree : Obligations.SoftAndHardwareResetAgree := by
  intro s x rest
  have hrst : decode (0xFF#8 ++ x) = .ok .rst := decode_append_of_no_dataByte .rst rfl rfl
  rw [step_command_of_decode_ok hrst, exec_eq_after, after_rst_eq_hardwareReset, step_of_host_cons rfl,
    afterMove_reset]

/-- Commands that commute with one another may be issued in any order. -/
theorem afterAll_perm {l m : List Instr} (h : l.Perm m)
    (hcomm : ∀ i ∈ l, ∀ j ∈ l, ∀ s, after j (after i s) = after i (after j s)) (s : State) :
    afterAll l s = afterAll m s :=
  h.foldl_eq' hcomm s

/-- CINIT, CRCI and SCLR write different registers, with constants or with what KEY fixes. -/
theorem after_comm_of_parts_of_rst {i j : Instr} (hi : i ∈ [Instr.cinit, .crci, .sclr])
    (hj : j ∈ [Instr.cinit, .crci, .sclr]) (s : State) : after j (after i s) = after i (after j s) := by
  simp only [List.mem_cons, List.not_mem_nil, or_false] at hi hj
  obtain rfl | rfl | rfl := hi <;> obtain rfl | rfl | rfl := hj <;> rfl

theorem afterAll_parts_of_rst (s : State) : afterAll [.cinit, .crci, .sclr] s = after .rst s := rfl

/-- CXOR of 0x00 as the second command after RST responds the first keystream byte. -/
theorem afterAll_rst_crcr_cxor_responses (s : State) :
    (afterAll [.rst, .crcr, .cxor 0x00#8] s).responses =
      s.responses ++ [0xFFFF#16, zext16 (ks s.cfg.KEY 0)] := by
  have hpos : AtPosition (after .crcr (after .rst s)) 0 := (atPosition_after_rst s).after .crcr
  calc (after (.cxor 0x00#8) (after .crcr (after .rst s))).responses
      = (after .crcr (after .rst s)).responses ++ [zext16 (0x00#8 ^^^ ks s.cfg.KEY 0)] :=
        hpos.after_cxor_responses 0x00#8
    _ = s.responses ++ [0xFFFF#16] ++ [zext16 (ks s.cfg.KEY 0)] := by rw [BitVec.zero_xor]; rfl
    _ = s.responses ++ [0xFFFF#16, zext16 (ks s.cfg.KEY 0)] := List.append_assoc _ _ _

/-- Settles O20: RST writes what a hardware reset writes; its three parts commute, so every order of them does what
the order of `execRst` does. -/
theorem rstLeavesResetState : Obligations.RstLeavesResetState := by
  refine ⟨fun _ => decode_append_of_no_dataByte .rst rfl rfl, exec_eq_after .rst, exec_eq_after .rst,
    fun s t h => ?_, fun s l hl => ?_, fun s => ?_, ?_⟩
  · obtain rfl := eq_after_of_exec h
    rw [exec_eq_after, after_after_of_writes_constants (by simp)]
  · have hcomm : ∀ i ∈ l, ∀ j ∈ l, ∀ s, after j (after i s) = after i (after j s) := fun i hi j hj =>
      after_comm_of_parts_of_rst (hl.mem_iff.mp hi) (hl.mem_iff.mp hj)
    rw [execAll_eq_afterAll, afterAll_perm hl hcomm, afterAll_parts_of_rst, exec_eq_after]
  · exact ⟨_, execAll_eq_afterAll _ s, afterAll_rst_crcr_cxor_responses s⟩
  · rw [ks_keyDefault_zero]
    rfl

end Sys2Proof.Machine
end

section
/-! PROOFS. Exceptions (spec/60_exceptions.md): no command can fail, and every command word completes (rule R160). -/

namespace Sys2Proof.Machine

/-- A step that finds a move of the host completes: a command word that decodes and one that does not alike. -/
theorem completes_of_host_cons {s : State} {m : HostMove} {rest : List HostMove} (h : s.host = m :: rest) :
    Completes s :=
  ⟨afterMove m { s with host := rest }, step_of_host_cons h⟩

/-- There is no fault to raise. -/
theorem isEmpty_fault : IsEmpty Fault :=
  ⟨fun f => by cases f⟩

/-- Settles O34: a command word leads to the state `afterMove` names, a command to the state `after` names. -/
theorem everyCommandWordCompletes : Obligations.EveryCommandWordCompletes := by
  refine ⟨fun s cmd rest => ?_, fun i s => ?_, isEmpty_fault⟩
  · exact completes_of_host_cons rfl
  · exact ⟨after i s, exec_eq_after i s⟩

end Sys2Proof.Machine
end

section
/-! PROOFS. Reset and runs (spec/70_reset_and_hazards.md): the reset input (rule R180), and a run of the host's moves
to its end (rule R193), with one response for each responding command (rule R185). -/

namespace Sys2Proof.Machine

/-! ### the reset input -/

/-- A hardware reset leads to the reset state for the block's own key; only the two ports keep what they hold. -/
theorem hardwareReset_eq_resetOf (s : State) :
    hardwareReset s = { State.resetOf s.cfg with host := s.host, responses := s.responses } := rfl

/-- Settles O7: the step is `hardwareReset` once the move is taken. -/
theorem hardwareResetStep : Obligations.HardwareResetStep := by
  intro s rest
  rw [step_of_host_cons rfl, afterMove_reset, hardwareReset_eq_resetOf]

/-! ### a run stays among the reachable states -/

/-- A run that completes has completed its first step. -/
theorem step_of_run_succ {k : Nat} {s t : State} (h : core.run (k + 1) s = .next t) :
    ∃ u, step s = .next u ∧ core.run k u = .next t := by
  cases hstep : step s with
  | next u => exact ⟨u, rfl, (run_succ_of_step hstep k).symm.trans h⟩
  | fault f => cases f
  | refused r =>
    have hcore : core.step s = .refused r := hstep
    simp [Host.Core.run, hcore] at h

theorem Reachable.run {k : Nat} {s t : State} (hs : Reachable s) (h : core.run k s = .next t) : Reachable t := by
  induction k generalizing s with
  | zero => exact Host.Outcome.next.inj h ▸ hs
  | succ k ih =>
    obtain ⟨u, hstep, hrun⟩ := step_of_run_succ h
    exact ih (.step s u hs hstep) hrun

/-! ### the number of responses -/

theorem responds_of_decode_ok {cmd : Word} {i : Instr} (h : decode cmd = .ok i) :
    HostMove.responds (.command cmd) = i.responds := by
  simp [HostMove.responds, h]

theorem responds_of_decode_error {cmd : Word} {e : DecodeError} (h : decode cmd = .error e) :
    HostMove.responds (.command cmd) = false := by
  simp [HostMove.responds, h]

/-- A command gives one response word or none (rule R70). -/
theorem length_responseOf (i : Instr) (s : State) : (responseOf i s).length = if i.responds then 1 else 0 := by
  split_ifs with hi
  · obtain ⟨r, hr⟩ := responseOf_of_responds hi s
    rw [hr, List.length_singleton]
  · rw [responseOf_of_not_responds (Bool.eq_false_iff.mpr hi), List.length_nil]

/-- A move adds one response if it is to be answered by one, and otherwise none. -/
theorem length_afterMove_responses (m : HostMove) (s : State) :
    (afterMove m s).responses.length = s.responses.length + if m.responds then 1 else 0 := by
  cases m with
  | reset => rfl
  | command cmd =>
    obtain ⟨i, hd⟩ | hd := decode_cases cmd
    · rw [afterMove_of_decode_ok hd, responds_of_decode_ok hd, after_responses, List.length_append,
        length_responseOf]
    · rw [afterMove_of_decode_error hd, responds_of_decode_error hd, setIll_responses]
      rfl

theorem length_afterMoves_responses (moves : List HostMove) (s : State) :
    (afterMoves moves s).responses.length = s.responses.length + moves.countP HostMove.responds := by
  induction moves generalizing s with
  | nil => rfl
  | cons m moves ih =>
    rw [afterMoves_cons, ih, length_afterMove_responses, List.countP_cons]
    omega

/-- Settles O36: the run ends where `afterMoves` says, which is reachable as the end of any run from a launch. -/
theorem runTakesEveryMove : Obligations.RunTakesEveryMove := by
  intro c moves
  have hrun : runMoves c moves = .next { afterMoves moves (State.resetOf c) with host := [] } :=
    run_moves moves (State.resetOf c)
  refine ⟨_, hrun, rfl, (Reachable.launch c moves).run hrun, ?_⟩
  calc (afterMoves moves (State.resetOf c)).responses.length
      = (State.resetOf c).responses.length + moves.countP HostMove.responds :=
        length_afterMoves_responses moves _
    _ = moves.countP HostMove.responds := by rw [resetOf_responses, List.length_nil, Nat.zero_add]

end Sys2Proof.Machine
end
